-- ==== Sys2Proof/Word.lean ====
section
/-! DEFINITION. The word types of the block (10_state.md R22, R34 to R37; 20_memory.md R72). -/

namespace Sys2Proof

/-- One byte: a ring byte, a frame-buffer byte, a chip-port register (R71, R72). -/
abbrev Byte := BitVec 8

/-- A 16-bit unsigned quantity: a ring's `size`, `length`, `current`; `rxOverflow`; `ARG16`. -/
abbrev Half := BitVec 16

/-- A host register, or a host-memory address (R34 to R38, R60). -/
abbrev Word := BitVec 32

end Sys2Proof
end

