-- ==== Sys2Proof/Config.lean ====
section
/-! DEFINITION. The parameters and constants of 00_scope.md R5 and R6, the choice of chip
(41_radio_fsm.md R163, R164), and the free values: opaque constants nothing can evaluate. -/

namespace Sys2Proof

namespace Config

/-- `FB_SIZE` (R5, conflict C1): bytes in the hardware frame buffer. -/
def fbSize : Nat := 128

/-- `FRAME_MAX` (R5, conflict C2): the largest frame length a received frame can report. -/
def frameMax : Nat := 127

/-- `CH_MIN` and `CH_MAX` (R5): the legal logical channels. -/
def chMin : Nat := 1

/-- `CH_MAX` (R5). -/
def chMax : Nat := 16

/-- `CH_DEFAULT` (R5): the channel used when the argument is out of range. -/
def chDefault : Nat := 1

/-- `CH_OFFSET` (R5): physical channel = logical channel + `CH_OFFSET`. -/
def chOffset : Nat := 10

/-- `PB_ATTEMPTS` (R5): `maxAttempts` of PUSH_BLOCKING. -/
def pbAttempts : Nat := 50

/-- `PB_DELAY_MS` (R5). Timing only: no rule reads it (20_memory.md R68). -/
def pbDelayMs : Nat := 5

/-- `TIME_UNIT_MS` (R5). Timing only: no rule reads it (20_memory.md R68). -/
def timeUnitMs : Nat := 1

/-- `STRLEN_MAX` (R5): the longest string PUTSTRING scans. -/
def strlenMax : Nat := 65535

/-- The number of host-memory addresses, 2^`HADDR_WIDTH` (R5, 20_memory.md R60). -/
def hostSpace : Nat := 4294967296

/-- FREE VALUE (log 9). The `n`-th per-read draw: what a read of a ring byte, a frame-buffer byte or
`QUALITY_LIVE` returns where the spec gives no value (10_state.md R25, R42; 93_implementation_defined.md
U5, U6, U8). -/
opaque drawByte : Nat → Byte

/-- FREE VALUE (log 11). What host memory holds at an address before the host or the block writes it:
host memory is a parameter of the model (20_memory.md R75). -/
opaque hostByte : Nat → Byte

end Config

/-- The `OPEN` parameters of R5 that are numbers. -/
structure Params where
  /-- `RX_SIZE` -/
  rxSize : Nat
  /-- `TX_SIZE` -/
  txSize : Nat
  /-- `MAX_PAYLOAD` -/
  maxPayload : Nat
  /-- `AUTOFLUSH_THRESHOLD` -/
  autoflush : Nat
  deriving DecidableEq, Repr

/-- R6: the legal parameter sets. -/
def Params.legal (p : Params) : Bool :=
  1 ≤ p.rxSize && p.rxSize ≤ 65535 && 1 ≤ p.txSize && p.txSize ≤ 65535 &&
    2 ≤ p.maxPayload && p.maxPayload ≤ Config.fbSize - 1 &&
    1 ≤ p.autoflush && p.autoflush ≤ 65535

/-- The defaults of R5 (configuration CFG-D of 95_test_vectors.md). -/
def Params.default : Params :=
  { rxSize := 128, txSize := 128, maxPayload := 126, autoflush := 125 }

/-- The parameter `CHIP` (R5, 41_radio_fsm.md R163): which chip stands behind the chip port. -/
inductive ChipModel where
  /-- Any chip R163 admits: it acts only in its own steps, each a turn of the agenda. -/
  | anyChip
  /-- The reference chip `REF` of R164 to R173: it reacts inside the step of each block write and takes
  no step of its own. -/
  | ref
  deriving DecidableEq, Repr

end Sys2Proof
end

