-- ==== Sys2Proof/Syntax.lean ====
section
/-! DEFINITION. The instructions: one constructor per row of spec/opcode_table.json, in the table's
order, with the operands its encoding holds (30_encoding.md R91, R93, R97, R100, R101). -/

namespace Sys2Proof

/-- The five formats of 30_encoding.md. `hcmd` is what a host writes to `CMD` (R91); the other four
name the block's internal operations (R97, R100, R101). -/
inductive Format where
  /-- `HCMD`, 32 bits (R91). -/
  | hcmd
  /-- `UOP`, 8 bits (R100). -/
  | uop
  /-- `TRXCMD`, 8 bits (R97). -/
  | trxcmd
  /-- `SEQ`, 4 bits (R101). -/
  | sub
  /-- `EVT`, 2 bits (R101). -/
  | evt
  deriving DecidableEq, Repr

/-- The number of bits of a format's codes. -/
def Format.bits : Format → Nat
  | .hcmd => 32
  | .uop => 8
  | .trxcmd => 8
  | .sub => 4
  | .evt => 2

/-- The instructions of the block. A host command carries the fields of `CMD` it uses (R93); the third
operand of GETBUFFER, PUTBUFFER and PUTSTRING is the register `ADDR`, no field of the word (R91). -/
inductive Instr where
  /-- `INIT`, opcode 0x01 (R150). -/
  | init (channel : Byte)
  /-- `TERMINATE`, opcode 0x02 (R154). -/
  | terminate
  /-- `ISACTIVE`, opcode 0x03 (R155). -/
  | isactive
  /-- `AVAILABLE`, opcode 0x10 (R220). -/
  | available
  /-- `GETBYTE`, opcode 0x11 (R221). -/
  | getbyte
  /-- `GETBUFFER`, opcode 0x12 (R222). -/
  | getbuffer (maxLen : Half)
  /-- `FLUSHRX`, opcode 0x13 (R224). -/
  | flushrx
  /-- `OVFCOUNT`, opcode 0x14 (R225). -/
  | ovfcount
  /-- `PUTBYTE`, opcode 0x20 (R227). -/
  | putbyte (b : Byte)
  /-- `PUTBUFFER`, opcode 0x21 (R228). -/
  | putbuffer (len : Half)
  /-- `PUTSTRING`, opcode 0x22 (R229). -/
  | putstring
  /-- `TRANSMITNOW`, opcode 0x23 (R230). -/
  | transmitnow
  /-- `RESET.RX`, code 0x00 (R120). -/
  | uopResetRx
  /-- `PEEK.RX`, code 0x10 (R121). -/
  | uopPeekRx
  /-- `POP.RX`, code 0x20 (R122). -/
  | uopPopRx
  /-- `PUSH.RX`, code 0x30 (R123). -/
  | uopPushRx
  /-- `PUSHB.RX`, code 0x40 (R124). -/
  | uopPushbRx
  /-- `CAPREM.RX`, code 0x50 (R125). -/
  | uopCapremRx
  /-- `ISEMPTY.RX`, code 0x60 (R126). -/
  | uopIsemptyRx
  /-- `FLUSH.RX`, code 0x70 (R127). -/
  | uopFlushRx
  /-- `RESET.TX`, code 0x08 (R120). -/
  | uopResetTx
  /-- `PEEK.TX`, code 0x18 (R121). -/
  | uopPeekTx
  /-- `POP.TX`, code 0x28 (R122). -/
  | uopPopTx
  /-- `PUSH.TX`, code 0x38 (R123). -/
  | uopPushTx
  /-- `PUSHB.TX`, code 0x48 (R124). -/
  | uopPushbTx
  /-- `CAPREM.TX`, code 0x58 (R125). -/
  | uopCapremTx
  /-- `ISEMPTY.TX`, code 0x68 (R126). -/
  | uopIsemptyTx
  /-- `FLUSH.TX`, code 0x78 (R127). -/
  | uopFlushTx
  /-- `TRX_TX_START`, code 0x02 (R165). -/
  | trxTxStart
  /-- `TRX_FORCE_IDLE`, code 0x03 (R166). -/
  | trxForceIdle
  /-- `TRX_LISTEN`, code 0x06 (R167). -/
  | trxListen
  /-- `TRX_IDLE`, code 0x08 (R168). -/
  | trxIdle
  /-- `TRX_READY`, code 0x09 (R169). -/
  | trxReady
  /-- `TRX_SLEEP`, code 0x0F (R170). -/
  | trxSleep
  /-- `TRX_WAKE`, code 0x10 (R171). -/
  | trxWake
  /-- `SEQ_FORCE_IDLE`, id 0x1 (R160). -/
  | seqForceIdle
  /-- `SEQ_LOAD_AND_SEND`, id 0x2 (R200). -/
  | seqLoadAndSend
  /-- `SEQ_PUT_ONE`, id 0x3 (R226). -/
  | seqPutOne
  /-- `EVT_FRAME_START`, vector 0 (R181). -/
  | evtFrameStart
  /-- `EVT_FRAME_END`, vector 1 (R182). -/
  | evtFrameEnd
  /-- `EVT_TX_COMPLETE`, vector 2 (R185). -/
  | evtTxComplete
  deriving DecidableEq, Repr

/-- The format an instruction is written in (the table's column `format`). -/
def Instr.format : Instr → Format
  | .init _ | .terminate | .isactive | .available | .getbyte | .getbuffer _ | .flushrx | .ovfcount
  | .putbyte _ | .putbuffer _ | .putstring | .transmitnow => .hcmd
  | .uopResetRx | .uopPeekRx | .uopPopRx | .uopPushRx | .uopPushbRx | .uopCapremRx | .uopIsemptyRx
  | .uopFlushRx | .uopResetTx | .uopPeekTx | .uopPopTx | .uopPushTx | .uopPushbTx | .uopCapremTx
  | .uopIsemptyTx | .uopFlushTx => .uop
  | .trxTxStart | .trxForceIdle | .trxListen | .trxIdle | .trxReady | .trxSleep | .trxWake => .trxcmd
  | .seqForceIdle | .seqLoadAndSend | .seqPutOne => .sub
  | .evtFrameStart | .evtFrameEnd | .evtTxComplete => .evt

end Sys2Proof
end

