-- ==== Sys2Proof/WellFormed.lean ====
section
/-! DEFINITION. What is well formed: a code word of a format (30_encoding.md R97, R100, R101, R104) and
an instruction (its operands fit the fields of R91). The legality of a parameter set (00_scope.md R6)
is `Params.legal` in Config.lean. -/

namespace Sys2Proof

/-- The reserved bits of a code word are zero: a `UOP` has bits 2:0 zero (R100), a `TRXCMD` bits 7:5
(R97), and no code has a bit above its format's width (R100, R101). A host command has no reserved bit:
its unused fields are ignored (R103). -/
def reservedBitsZero (f : Format) (w : Word) : Bool :=
  match f with
  | .hcmd => true
  | .uop => w.toNat < 256 && w.toNat % 8 == 0
  | .trxcmd => w.toNat < 32
  | .sub => w.toNat < 16
  | .evt => w.toNat < 4

/-- Every operand of an instruction fits the field that encodes it (R91, R102). The operand types are
the fields' own widths, so the check holds of every term; what can be ill formed is a code word. -/
def Instr.wellFormed : Instr → Bool
  | .init channel => channel.toNat ≤ 255
  | .putbyte b => b.toNat ≤ 255
  | .getbuffer maxLen => maxLen.toNat ≤ 65535
  | .putbuffer len => len.toNat ≤ 65535
  | _ => true

end Sys2Proof
end

