-- ==== Sys2Proof/Decode.lean ====
section
/-! DEFINITION. The decoder and the encoder (30_encoding.md R91, R93, R97, R100, R101). -/

namespace Sys2Proof

/-- Why a word is no instruction. -/
inductive DecodeError where
  /-- `OPC` is no opcode of R93 (R94). -/
  | illegalOpcode (opc : Byte)
  /-- A reserved bit of the format is set (R97, R100, R101, R104). -/
  | reservedBits (f : Format)
  /-- The code names no operation of its format (R97, R100, R101, R104). -/
  | unassignedCode (f : Format) (code : Nat)
  deriving DecidableEq, Repr

/-- The fields of a `CMD` word (R91): `OPC` = bits 7:0. -/
def opcField (w : Word) : Byte := w.extractLsb' 0 8

/-- `ARG8` = bits 15:8 (R91). -/
def arg8Field (w : Word) : Byte := w.extractLsb' 8 8

/-- `ARG16` = bits 31:16 (R91). -/
def arg16Field (w : Word) : Half := w.extractLsb' 16 16

/-- A `CMD` word of the three fields of R91. -/
def cmdWord (opc : Byte) (a8 : Byte) (a16 : Half) : Word := a16 ++ a8 ++ opc

/-- The host opcode map of R93. Only the fields a command uses are read (R103). -/
def decodeHcmd (w : Word) : Except DecodeError Instr :=
  match (opcField w).toNat with
  | 0x01 => .ok (.init (arg8Field w))
  | 0x02 => .ok .terminate
  | 0x03 => .ok .isactive
  | 0x10 => .ok .available
  | 0x11 => .ok .getbyte
  | 0x12 => .ok (.getbuffer (arg16Field w))
  | 0x13 => .ok .flushrx
  | 0x14 => .ok .ovfcount
  | 0x20 => .ok (.putbyte (arg8Field w))
  | 0x21 => .ok (.putbuffer (arg16Field w))
  | 0x22 => .ok .putstring
  | 0x23 => .ok .transmitnow
  | _ => .error (.illegalOpcode (opcField w))

/-- The `UOP` codes of R100: `op` in bits 7:4, `SEL` in bit 3 (0 = `RX`, 1 = `TX`). -/
def decodeUop (n : Nat) : Except DecodeError Instr :=
  match n with
  | 0x00 => .ok .uopResetRx
  | 0x10 => .ok .uopPeekRx
  | 0x20 => .ok .uopPopRx
  | 0x30 => .ok .uopPushRx
  | 0x40 => .ok .uopPushbRx
  | 0x50 => .ok .uopCapremRx
  | 0x60 => .ok .uopIsemptyRx
  | 0x70 => .ok .uopFlushRx
  | 0x08 => .ok .uopResetTx
  | 0x18 => .ok .uopPeekTx
  | 0x28 => .ok .uopPopTx
  | 0x38 => .ok .uopPushTx
  | 0x48 => .ok .uopPushbTx
  | 0x58 => .ok .uopCapremTx
  | 0x68 => .ok .uopIsemptyTx
  | 0x78 => .ok .uopFlushTx
  | _ => .error (.unassignedCode .uop n)

/-- The `TRX_CMD` codes of R97. -/
def decodeTrxcmd (n : Nat) : Except DecodeError Instr :=
  match n with
  | 0x02 => .ok .trxTxStart
  | 0x03 => .ok .trxForceIdle
  | 0x06 => .ok .trxListen
  | 0x08 => .ok .trxIdle
  | 0x09 => .ok .trxReady
  | 0x0F => .ok .trxSleep
  | 0x10 => .ok .trxWake
  | _ => .error (.unassignedCode .trxcmd n)

/-- The subroutine ids of R101. -/
def decodeSub (n : Nat) : Except DecodeError Instr :=
  match n with
  | 0x1 => .ok .seqForceIdle
  | 0x2 => .ok .seqLoadAndSend
  | 0x3 => .ok .seqPutOne
  | _ => .error (.unassignedCode .sub n)

/-- The event vectors of R101. -/
def decodeEvt (n : Nat) : Except DecodeError Instr :=
  match n with
  | 0 => .ok .evtFrameStart
  | 1 => .ok .evtFrameEnd
  | 2 => .ok .evtTxComplete
  | _ => .error (.unassignedCode .evt n)

/-- The decoder: total, every word that is no instruction rejected by name. -/
def decode (f : Format) (w : Word) : Except DecodeError Instr :=
  if reservedBitsZero f w then
    match f with
    | .hcmd => decodeHcmd w
    | .uop => decodeUop w.toNat
    | .trxcmd => decodeTrxcmd w.toNat
    | .sub => decodeSub w.toNat
    | .evt => decodeEvt w.toNat
  else .error (.reservedBits f)

/-- The encoder: the word of an instruction in its format (R93, R97, R100, R101). A field the command
does not use is written 0 (R103). -/
def encode : Instr → Word
  | .init channel => cmdWord 0x01 channel 0
  | .terminate => cmdWord 0x02 0 0
  | .isactive => cmdWord 0x03 0 0
  | .available => cmdWord 0x10 0 0
  | .getbyte => cmdWord 0x11 0 0
  | .getbuffer maxLen => cmdWord 0x12 0 maxLen
  | .flushrx => cmdWord 0x13 0 0
  | .ovfcount => cmdWord 0x14 0 0
  | .putbyte b => cmdWord 0x20 b 0
  | .putbuffer len => cmdWord 0x21 0 len
  | .putstring => cmdWord 0x22 0 0
  | .transmitnow => cmdWord 0x23 0 0
  | .uopResetRx => 0x00
  | .uopPeekRx => 0x10
  | .uopPopRx => 0x20
  | .uopPushRx => 0x30
  | .uopPushbRx => 0x40
  | .uopCapremRx => 0x50
  | .uopIsemptyRx => 0x60
  | .uopFlushRx => 0x70
  | .uopResetTx => 0x08
  | .uopPeekTx => 0x18
  | .uopPopTx => 0x28
  | .uopPushTx => 0x38
  | .uopPushbTx => 0x48
  | .uopCapremTx => 0x58
  | .uopIsemptyTx => 0x68
  | .uopFlushTx => 0x78
  | .trxTxStart => 0x02
  | .trxForceIdle => 0x03
  | .trxListen => 0x06
  | .trxIdle => 0x08
  | .trxReady => 0x09
  | .trxSleep => 0x0F
  | .trxWake => 0x10
  | .seqForceIdle => 0x1
  | .seqLoadAndSend => 0x2
  | .seqPutOne => 0x3
  | .evtFrameStart => 0
  | .evtFrameEnd => 1
  | .evtTxComplete => 2

/-- Which format a word of the opcode table is read in, from its number of bits alone (log 3). More
than 8 bits is a host command; 3 or 4 bits a subroutine id; 1 or 2 bits an event vector. Eight bits is
shared by all five formats in the table's bytes: the internal formats are tried in the order `UOP`,
`TRXCMD`, `SEQ`, `EVT`, and a byte that is none of their codes is a host opcode with its arguments 0. -/
def tableFormat (nbits w : Nat) : Format :=
  if 8 < nbits then .hcmd
  else if nbits ≤ 2 then .evt
  else if nbits ≤ 4 then .sub
  else
    let isCode (f : Format) : Bool := (decode f (BitVec.ofNat 32 w)).toOption.isSome
    if isCode .uop then .uop
    else if isCode .trxcmd then .trxcmd
    else if isCode .sub then .sub
    else if isCode .evt then .evt
    else .hcmd

/-- The instruction the decoder reads from a word of the opcode table (log 3). -/
def decodeTableWord (nbits w : Nat) : Option Instr :=
  (decode (tableFormat nbits w) (BitVec.ofNat 32 w)).toOption

end Sys2Proof
end

