-- ==== Sys2Proof/Machine/State.lean ====
section
/-! DEFINITION. The state of the block and of the agents around it (10_state.md), the turns that say
who steps next (20_memory.md R62), the reasons a step can stop, and the power-up state (R52). -/

namespace Sys2Proof.Machine

/-- Byte storage by address, in one canonical form: addresses strictly rising. An address that is not
listed was never written; what a read of it gives is the reader's business (10_state.md R25, R42;
20_memory.md R75). Used for ring storage, the frame buffer and host memory. -/
abbrev Memory := List Host.Cell

/-- One ring (R22). -/
structure Ring where
  /-- `RB.store`, keyed by index; a byte never written is not listed (R25). -/
  store : Memory
  /-- `RB.size`, the capacity, a constant of the run. -/
  size : Half
  /-- `RB.length`, the bytes held. -/
  length : Half
  /-- `RB.current`, the index of the oldest byte. -/
  current : Half
  deriving DecidableEq, Repr

/-- Which ring a rule for both applies to: the `SEL` bit of a `UOP` code (30_encoding.md R100). -/
inductive RingSel where
  | rx
  | tx
  deriving DecidableEq, Repr

/-- The result of a ring primitive or of an internal subroutine (00_scope.md R11). -/
inductive OpResult where
  /-- No result (RESET and FLUSH have none). -/
  | none
  /-- `OK(b)` -/
  | ok (b : Byte)
  /-- `EMPTY` -/
  | empty
  /-- `FULL` -/
  | full
  /-- A plain number. -/
  | num (n : Nat)
  deriving DecidableEq, Repr

/-- `STATUS` (R38), one Bool a field; its 32-bit word, reserved bits 0, is `Status.word` in Flags.lean. -/
structure Status where
  /-- Bit 0: a command is running. -/
  busy : Bool
  /-- Bit 1: an unassigned opcode was written. -/
  ill : Bool
  /-- Bit 2: `CMD` was written while busy. -/
  ovr : Bool
  /-- Bit 3: a host memory range crossed the top of the address space. -/
  haddr : Bool
  /-- Bit 4: PUTSTRING found no zero byte. -/
  strlen : Bool
  /-- Bit 5: onFrameEnd read a frame length above `FRAME_MAX`. -/
  rxlen : Bool
  /-- Bit 6: INIT was written while active. -/
  initact : Bool
  deriving DecidableEq, Repr

/-- The faults a command routine raises, and RXLEN (60_exceptions.md R262): each a bit of `STATUS`. -/
inductive FaultCode where
  | ill
  | ovr
  | haddr
  | strlen
  | rxlen
  | initact
  deriving DecidableEq, Repr

/-- The three events (60_exceptions.md R264). -/
inductive Event where
  | frameStart
  | frameEnd
  | txComplete
  deriving DecidableEq, Repr

/-- One bit for each event: the latches (R47) or the enables (R48). -/
structure EventBits where
  /-- `pendSTART` or `enSTART`. -/
  frameStart : Bool
  /-- `pendEND` or `enEND`. -/
  frameEnd : Bool
  /-- `pendTXC` or `enTXC`. -/
  txComplete : Bool
  deriving DecidableEq, Repr

/-- The byte registers of the chip port the block writes, less the frame buffer (R40). -/
inductive ChipReg where
  | trxCmd
  | evtEn
  | ctrl
  | channel
  | txPwr
  | pin
  deriving DecidableEq, Repr

/-- The transceiver behind the chip port, as far as the spec gives it state (R40 to R44, R52;
41_radio_fsm.md R163, R164). -/
structure Chip where
  /-- The last value written to `TRX_CMD`. -/
  trxCmd : Byte
  /-- `TRX_STATUS`: the activity state in bits 4:0; bits 7:5 are the chip's (30_encoding.md R98). -/
  trxStatus : Byte
  /-- The chip's copy of `EVT_EN`. -/
  evtEn : Byte
  /-- The chip's copy of `CTRL`. -/
  ctrl : Byte
  /-- The chip's copy of `CHANNEL`. -/
  channel : Byte
  /-- The chip's copy of `TX_PWR`. -/
  txPwr : Byte
  /-- The chip's copy of `PIN`. -/
  pin : Byte
  /-- `QUALITY_LIVE`; none is the spec's own state 'neither AIR nor CHIP has written it', in which each
  read is a draw (R52, 93_implementation_defined.md U8). -/
  qualityLive : Option Byte
  /-- The frame buffer, keyed by index 0 to 127; a byte never written is not listed (R41, R42). -/
  fb : Memory
  /-- `armed` of the reference chip (41_radio_fsm.md R164). -/
  armed : Bool
  /-- The emissions granted and not yet spent (41_radio_fsm.md R163 (c)). -/
  grants : Nat
  deriving DecidableEq, Repr

/-- One entry of `txLog` (43_frame_assembler.md R206): the length, and the payload or none for ⊥. -/
structure TxRecord where
  len : Byte
  payload : Option (List Byte)
  deriving DecidableEq, Repr

/-- The phase of `AIR` (42_event_handlers.md R180). -/
inductive AirPhase where
  | quiet
  | inFrame
  deriving DecidableEq, Repr

/-- The steps of INIT (41_radio_fsm.md R150). -/
inductive InitStep where
  | S1 | S2 | S3 | S4 | S5 | S6 | S7 | S8 | S9 | S10 | S11 | S12 | S13 | S14 | S15 | S16 | S17 | S18
  deriving DecidableEq, Repr

/-- The steps of TERMINATE (41_radio_fsm.md R154). -/
inductive TerminateStep where
  | S1 | S2 | S3 | S4 | S5 | S6
  deriving DecidableEq, Repr

/-- The steps of ISACTIVE (41_radio_fsm.md R155). -/
inductive IsActiveStep where
  | S1
  deriving DecidableEq, Repr

/-- The steps of AVAILABLE (44_transport_api.md R220). -/
inductive AvailableStep where
  | S1 | S2
  deriving DecidableEq, Repr

/-- The steps of GETBYTE (44_transport_api.md R221). -/
inductive GetByteStep where
  | S1 | S2
  deriving DecidableEq, Repr

/-- The steps of GETBUFFER (44_transport_api.md R222). -/
inductive GetBufferStep where
  | S1 | S2 | S3 | S4 | S5 | S6
  deriving DecidableEq, Repr

/-- The steps of FLUSHRX (44_transport_api.md R224). -/
inductive FlushRxStep where
  | S1 | S2 | S3
  deriving DecidableEq, Repr

/-- The steps of OVFCOUNT (44_transport_api.md R225). -/
inductive OvfCountStep where
  | S1
  deriving DecidableEq, Repr

/-- The steps of PUTBYTE (44_transport_api.md R227). -/
inductive PutByteStep where
  | S1 | S2 | S3
  deriving DecidableEq, Repr

/-- The steps of PUTBUFFER (44_transport_api.md R228). -/
inductive PutBufferStep where
  | S1 | S2 | S3 | S4 | S5
  deriving DecidableEq, Repr

/-- The steps of PUTSTRING (44_transport_api.md R229). -/
inductive PutStringStep where
  | S1 | S2 | S3 | S4 | S5 | S6 | S7 | S8
  deriving DecidableEq, Repr

/-- The steps of TRANSMITNOW (44_transport_api.md R230). -/
inductive TransmitNowStep where
  | S1 | S2 | S3
  deriving DecidableEq, Repr

/-- The steps of the subroutine FORCE_IDLE (41_radio_fsm.md R160). -/
inductive ForceIdleStep where
  | S1 | S2 | S3 | S4 | S5 | S6 | S7 | S8 | S9 | S10
  deriving DecidableEq, Repr

/-- The steps of the subroutine LOAD_AND_SEND (43_frame_assembler.md R200). -/
inductive LoadAndSendStep where
  | S1 | S2 | S3 | S4 | S5 | S6 | S7 | S8 | S9 | S10 | S11 | S12
  deriving DecidableEq, Repr

/-- The steps of the subroutine PUT_ONE (44_transport_api.md R226). -/
inductive PutOneStep where
  | S1 | S2 | S3
  deriving DecidableEq, Repr

/-- The steps of the subroutine PUSH_BLOCKING (40_ring_buffer.md R124). -/
inductive PushBlockingStep where
  | S1 | S2 | S3 | S4
  deriving DecidableEq, Repr

/-- A routine and the label of its next step (R45). -/
inductive Label where
  | init (l : InitStep)
  | terminate (l : TerminateStep)
  | isActive (l : IsActiveStep)
  | available (l : AvailableStep)
  | getByte (l : GetByteStep)
  | getBuffer (l : GetBufferStep)
  | flushRx (l : FlushRxStep)
  | ovfCount (l : OvfCountStep)
  | putByte (l : PutByteStep)
  | putBuffer (l : PutBufferStep)
  | putString (l : PutStringStep)
  | transmitNow (l : TransmitNowStep)
  | forceIdle (l : ForceIdleStep)
  | loadAndSend (l : LoadAndSendStep)
  | putOne (l : PutOneStep)
  | pushBlocking (l : PushBlockingStep)
  deriving DecidableEq, Repr

/-- The locals of a routine frame, under the names the pseudocode gives them. A routine uses those it
names; the others keep the 0 they have when the frame is made (log 17). -/
structure Locals where
  /-- `a8`, latched from `ARG8` (30_encoding.md R92). -/
  a8 : Byte := 0
  /-- `a16`, latched from `ARG16`. -/
  a16 : Half := 0
  /-- `a32`, latched from `ADDR`. -/
  a32 : Word := 0
  /-- INIT's `ch`, the clamped logical channel. -/
  ch : BitVec 5 := 0
  /-- INIT's `phys`, the physical channel. -/
  phys : Byte := 0
  /-- INIT's `s`, the chip state read at S6. -/
  st : BitVec 5 := 0
  /-- `ok`, the result of FORCE_IDLE. -/
  ok : Bool := false
  /-- `i`, a counter on unbounded integers (00_scope.md R8). -/
  i : Nat := 0
  /-- `n`, a count. -/
  n : Nat := 0
  /-- `k`, a count. -/
  k : Nat := 0
  /-- `b`, a byte. -/
  b : Byte := 0
  /-- `c`, a byte. -/
  c : Byte := 0
  /-- `r`, the result of a ring primitive, of PUT_ONE or of PUSH_BLOCKING. -/
  r : OpResult := .none
  /-- The ring PUSH_BLOCKING works on. -/
  sel : RingSel := .rx
  deriving DecidableEq, Repr

/-- A routine frame (R45): a routine, a step label and the routine's locals. -/
structure Frame where
  label : Label
  loc : Locals
  deriving DecidableEq, Repr

/-- The sequencer state (R45): `Idle`, or `Run` with a non-empty stack, its top frame first. -/
inductive Seq where
  | idle
  | run (top : Frame) (rest : List Frame)
  deriving DecidableEq, Repr

/-- A step of `HOST` (70_reset_and_hazards.md R310). -/
inductive HostAccess where
  /-- A read of a host register: the access size in bytes and the byte offset. -/
  | read (bytes offset : Nat)
  /-- A write of a host register. -/
  | write (bytes offset : Nat) (v : Word)
  /-- A write of one byte of host memory by the host that owns it. -/
  | memWrite (addr : Word) (v : Byte)
  deriving DecidableEq, Repr

/-- A step of `CHIP` (41_radio_fsm.md R163), taken only where the chip is `ChipModel.anyChip`. -/
inductive ChipStep where
  /-- (a) Set what `TRX_STATUS` reports: bits 4:0 any code, bits 7:5 anything. -/
  | setStatus (v : Byte)
  /-- (b) Change `QUALITY_LIVE` to any byte. -/
  | setQuality (v : Byte)
  /-- (c) Spend a grant: emit the frame that stands in `FB`. -/
  | emit
  /-- (d) Fire the `TX_COMPLETE` event. -/
  | fireTxComplete
  /-- Change the chip's own copy of a register (93_implementation_defined.md U2). -/
  | setCopy (r : ChipReg) (v : Byte)
  /-- Write a frame-buffer byte (42_event_handlers.md R186 (g)). -/
  | writeFb (i : Nat) (v : Byte)
  deriving DecidableEq, Repr

/-- A step of `AIR` (42_event_handlers.md R180). -/
inductive AirStep where
  /-- (a) A frame starts, with a quality byte. -/
  | frameStart (q : Byte)
  /-- (b) A frame ends: `FB[0]`, the bytes `FB[1..min(L,127)]`, and perhaps a new quality byte. -/
  | frameEnd (len : Byte) (bytes : List Byte) (q : Option Byte)
  /-- (c) A frame is abandoned. -/
  | abandon
  deriving DecidableEq, Repr

/-- Who steps next, and what that agent does (20_memory.md R62; log 1). -/
inductive Turn where
  /-- The block steps: `HND` if a latch is pending, else `SEQ` (60_exceptions.md R265). -/
  | block
  | host (a : HostAccess)
  | chip (c : ChipStep)
  | air (a : AirStep)
  /-- The model's own: the block performs the internal operation whose code is `w` in format `f` (log 2).
  No step of the block, the host, the chip or the air makes such a turn. -/
  | issue (f : Format) (w : Word)
  deriving DecidableEq, Repr

/-- Why the machine stops with a fault. The spec's faults are sticky `STATUS` bits, not these
(60_exceptions.md R260, R262). -/
inductive Fault where
  /-- Raised by a frame-buffer write at an index above 127: the chip-port space ends at 0xFF
  (20_memory.md R60 (c)). Safe: no state that keeps the block's invariant raises it (log 18). -/
  | noSuchFrameByte (index : Nat)
  /-- Raised by a host-memory access at an address above 2^32 - 1 (20_memory.md R60 (b)). Safe: no state
  that keeps the block's invariant raises it (log 18). -/
  | noSuchHostAddress (addr : Nat)
  deriving DecidableEq, Repr

/-- Why a step has no meaning. -/
inductive Refusal where
  /-- An arm of exec whose instruction has no meaning yet. Safe: the machine stops. -/
  | notModelled (mnemonic : String)
  /-- Raised by step in a state whose parameters break 00_scope.md R6: the spec gives such a set no
  state (60_exceptions.md R263 (b)). Safe. -/
  | illegalParameters
  /-- Raised by a turn that issues a code 30_encoding.md R104 calls unassigned and never generated. Safe:
  the spec gives it no effect. -/
  | unassignedCode (e : DecodeError)
  deriving DecidableEq, Repr

/-- The state. Ring storage, registers, the sequencer and the event state are the block's
(10_state.md sections 2 to 8); the chip, the air and host memory are the agents' around it. -/
structure State where
  /-- `MAX_PAYLOAD` (00_scope.md R5), a constant of the run. -/
  maxPayload : Nat
  /-- `AUTOFLUSH_THRESHOLD` (R5), a constant of the run. -/
  autoflush : Nat
  /-- Which chip stands behind the chip port (R5, 41_radio_fsm.md R163, R164), a constant of the run. -/
  chipModel : ChipModel
  /-- The receive ring (R22). -/
  rx : Ring
  /-- The transmit ring (R22). -/
  tx : Ring
  /-- The receive bytes dropped, wrapping (R27). -/
  rxOverflow : Half
  /-- R28 -/
  txIdle : Bool
  /-- 0 = inactive, 1..16 = active on that logical channel (R29). -/
  initialized : BitVec 5
  /-- The captured signal-quality byte (R32). -/
  qcap : Byte
  /-- `ADDR` (R35). -/
  addr : Word
  /-- `RESULT` (R36). -/
  result : Word
  /-- `STATUS` (R38). -/
  status : Status
  /-- The event latches (R47). -/
  pend : EventBits
  /-- The event enables (R48). -/
  en : EventBits
  /-- The command sequencer (R45). -/
  seq : Seq
  /-- The frames the chip has emitted, oldest first (R49). -/
  txLog : List TxRecord
  /-- A case the spec gives no meaning was met (R50). -/
  refused : Bool
  /-- The transceiver (R40 to R44). -/
  chip : Chip
  /-- The phase of `AIR` (42_event_handlers.md R180). -/
  airPhase : AirPhase
  /-- Host memory (20_memory.md R60 (b), R75). -/
  hostMem : Memory
  /-- The model's own: the turns to come, the next first (log 1). -/
  agenda : List Turn
  /-- The model's own: how many per-read draws were taken (log 9). -/
  draws : Nat
  /-- The model's own: what the last host register read returned (log 14). -/
  busData : Word
  /-- The model's own: the operand byte of an issued internal operation (log 15). -/
  opArg : Byte
  /-- The model's own: the result of an issued internal operation (log 15). -/
  opRes : OpResult
  deriving DecidableEq, Repr

/-- What the spec leaves unknown at power-up, drawn once (R52; 93_implementation_defined.md U1, U2, U7). -/
structure PowerUpDraws where
  qcap : Byte
  trxCmd : Byte
  trxStatus : Byte
  evtEn : Byte
  ctrl : Byte
  channel : Byte
  txPwr : Byte
  pin : Byte
  deriving DecidableEq, Repr

/-- DESIGN CHOICE (log 6, 7, 8): the values the model names for what the spec leaves unknown. The chip
is `ASLEEP`, the start of programs P1 and P4; the rest is 0. -/
def PowerUpDraws.named : PowerUpDraws :=
  { qcap := 0, trxCmd := 0, trxStatus := 0x0F, evtEn := 0, ctrl := 0, channel := 0, txPwr := 0, pin := 0 }

/-- An empty ring of a given capacity (R52). -/
def Ring.powerUp (size : Nat) : Ring :=
  { store := [], size := BitVec.ofNat 16 size, length := 0, current := 0 }

/-- The power-up state (R52, 70_reset_and_hazards.md R300) for a parameter set, a chip and the draws. The
reference chip too may power up reporting any code, `BUSY` and `SENDING` among them: the side the model
takes where the spec's files differ (log 23). -/
def State.powerUp (p : Params) (m : ChipModel) (d : PowerUpDraws) : State :=
  { maxPayload := p.maxPayload
    autoflush := p.autoflush
    chipModel := m
    rx := Ring.powerUp p.rxSize
    tx := Ring.powerUp p.txSize
    rxOverflow := 0
    txIdle := false
    initialized := 0
    qcap := d.qcap
    addr := 0
    result := 0
    status := { busy := false, ill := false, ovr := false, haddr := false, strlen := false,
                rxlen := false, initact := false }
    pend := { frameStart := false, frameEnd := false, txComplete := false }
    en := { frameStart := false, frameEnd := false, txComplete := false }
    seq := .idle
    txLog := []
    refused := false
    chip := { trxCmd := d.trxCmd, trxStatus := d.trxStatus, evtEn := d.evtEn, ctrl := d.ctrl,
              channel := d.channel, txPwr := d.txPwr, pin := d.pin, qualityLive := none, fb := [],
              armed := false, grants := 0 }
    airPhase := .quiet
    hostMem := []
    agenda := []
    draws := 0
    busData := 0
    opArg := 0
    opRes := .none }

/-- The model is built only for a legal parameter set (00_scope.md R6, 60_exceptions.md R263 (b)). -/
def State.construct (p : Params) (m : ChipModel) (d : PowerUpDraws) : Option State :=
  if p.legal then some (State.powerUp p m d) else none

/-- The machine right after reset: power-up (70_reset_and_hazards.md R300) with the defaults of
00_scope.md R5, the reference chip, and the named draws (log 4, 5, 6, 7, 8). -/
def State.reset : State := State.powerUp Params.default .ref PowerUpDraws.named

end Sys2Proof.Machine
end

