-- ==== Sys2Proof/Machine/Flags.lean ====
section
/-! DEFINITION. The flags: the word of `STATUS` and its fault bits (10_state.md R38, 60_exceptions.md
R262), the event enables and latches (R264, R266, R267), and CRC_VALID (10_state.md R33). -/

namespace Sys2Proof.Machine

/-- The 32-bit word a host reads from `STATUS` (R38); bits 31:7 read 0. -/
def Status.word (st : Status) : Word :=
  0#25 ++ BitVec.ofBool st.initact ++ BitVec.ofBool st.rxlen ++ BitVec.ofBool st.strlen ++
    BitVec.ofBool st.haddr ++ BitVec.ofBool st.ovr ++ BitVec.ofBool st.ill ++ BitVec.ofBool st.busy

/-- Set the sticky bit of a fault (R262). -/
def Status.raise (c : FaultCode) (st : Status) : Status :=
  match c with
  | .ill => { st with ill := true }
  | .ovr => { st with ovr := true }
  | .haddr => { st with haddr := true }
  | .strlen => { st with strlen := true }
  | .rxlen => { st with rxlen := true }
  | .initact => { st with initact := true }

/-- The sticky bit of a fault. -/
def Status.has (c : FaultCode) (st : Status) : Bool :=
  match c with
  | .ill => st.ill
  | .ovr => st.ovr
  | .haddr => st.haddr
  | .strlen => st.strlen
  | .rxlen => st.rxlen
  | .initact => st.initact

/-- The bit of an event. -/
def EventBits.get (b : EventBits) (e : Event) : Bool :=
  match e with
  | .frameStart => b.frameStart
  | .frameEnd => b.frameEnd
  | .txComplete => b.txComplete

/-- Set or clear the bit of an event. -/
def EventBits.set (b : EventBits) (e : Event) (v : Bool) : EventBits :=
  match e with
  | .frameStart => { b with frameStart := v }
  | .frameEnd => { b with frameEnd := v }
  | .txComplete => { b with txComplete := v }

/-- The enables a write of `EVT_EN` sets: bits 2, 3 and 6 (10_state.md R40, R266). -/
def eventEnables (v : Byte) : EventBits :=
  { frameStart := v.getLsbD 2, frameEnd := v.getLsbD 3, txComplete := v.getLsbD 6 }

/-- The latches left when each latch whose enable is 0 is cleared (R266). -/
def EventBits.mask (pend en : EventBits) : EventBits :=
  { frameStart := pend.frameStart && en.frameStart
    frameEnd := pend.frameEnd && en.frameEnd
    txComplete := pend.txComplete && en.txComplete }

/-- The vector of the latch of highest priority, if one is set: `FRAME_START`, then `FRAME_END`, then
`TX_COMPLETE` (R267; the vectors are those of 30_encoding.md R101). -/
def pendingVector (pend : EventBits) : Option Word :=
  if pend.frameStart then some 0
  else if pend.frameEnd then some 1
  else if pend.txComplete then some 2
  else none

/-- `CRC_VALID`, bit 7 of a signal-quality byte (10_state.md R33). -/
def crcValid (q : Byte) : Bool := q.getLsbD 7

end Sys2Proof.Machine
end

