-- ==== Sys2Proof/Machine/Operands.lean ====
section
/-! DEFINITION. Operands and results: channel validation (41_radio_fsm.md R151), host ranges
(20_memory.md R74), result encoding (30_encoding.md R96), and the codes of the chip port (R97 to R99). -/

namespace Sys2Proof.Machine

/-- INIT step 1: the logical channel, `CH_DEFAULT` where the argument is out of range (R151). -/
def clampChannel (a8 : Byte) : BitVec 5 :=
  if Config.chMin ≤ a8.toNat ∧ a8.toNat ≤ Config.chMax then BitVec.ofNat 5 a8.toNat
  else BitVec.ofNat 5 Config.chDefault

/-- INIT step 2: the physical channel (R151). -/
def physicalChannel (ch : BitVec 5) : Byte := BitVec.ofNat 8 (ch.toNat + Config.chOffset)

/-- `RESULT <- trunc_32(v)`, two's complement (R96). -/
def encodeResult (v : Int) : Word := BitVec.ofInt 32 v

/-- The range of `n` bytes at `a32` would pass address 2^32 - 1 (R74). -/
def rangeCrosses (a32 : Word) (n : Nat) : Bool :=
  0 < n && Config.hostSpace - 1 < a32.toNat + n - 1

/-- The index of a register the block writes, in the chip-port space (10_state.md R40). -/
def ChipReg.index : ChipReg → Byte
  | .trxCmd => 0x00
  | .evtEn => 0x02
  | .ctrl => 0x03
  | .channel => 0x04
  | .txPwr => 0x05
  | .pin => 0x06

/-- The places of the chip-port space (10_state.md R40, 20_memory.md R60 (c), R78). -/
inductive ChipPort where
  /-- A register the block writes. -/
  | reg (r : ChipReg)
  /-- `TRX_STATUS`, which the block reads. -/
  | trxStatus
  /-- `QUALITY_LIVE`, which the block reads. -/
  | qualityLive
  /-- `FB[i]`, which the block reads and writes. -/
  | fb (i : Nat)
  deriving DecidableEq, Repr

/-- The chip-port map (R40): the index of each place. -/
def ChipPort.index : ChipPort → Nat
  | .reg r => r.index.toNat
  | .trxStatus => 0x01
  | .qualityLive => 0x07
  | .fb i => 0x80 + i

/-- The block reads a place (R40): only `TRX_STATUS`, `QUALITY_LIVE` and `FB`. -/
def ChipPort.blockReads : ChipPort → Bool
  | .reg _ => false
  | .trxStatus | .qualityLive | .fb _ => true

/-- The block writes a place (R40). -/
def ChipPort.blockWrites : ChipPort → Bool
  | .reg _ | .fb _ => true
  | .trxStatus | .qualityLive => false

/-- The place at an index of the chip-port space: the registers at 0x00 to 0x07 and the frame buffer at
0x80 to 0xFF; nothing stands at any other index (R60 (c)). -/
def chipPortAt (index : Nat) : Option ChipPort :=
  if 0x80 ≤ index then if index ≤ 0xFF then some (.fb (index - 0x80)) else none
  else
    match index with
    | 0x00 => some (.reg .trxCmd)
    | 0x01 => some .trxStatus
    | 0x02 => some (.reg .evtEn)
    | 0x03 => some (.reg .ctrl)
    | 0x04 => some (.reg .channel)
    | 0x05 => some (.reg .txPwr)
    | 0x06 => some (.reg .pin)
    | 0x07 => some .qualityLive
    | _ => none

/-- `TRX_STATUS.STATE` codes (R98): `SENDING`. -/
def stSending : BitVec 5 := 0x02
/-- `LISTENING` (R98). -/
def stListening : BitVec 5 := 0x06
/-- `IDLE` (R98). -/
def stIdle : BitVec 5 := 0x08
/-- `READY_TO_SEND` (R98). -/
def stReady : BitVec 5 := 0x09
/-- `ASLEEP` (R98). -/
def stAsleep : BitVec 5 := 0x0F
/-- `BUSY` (R98). -/
def stBusy : BitVec 5 := 0x1F

/-- `TRX_CMD` codes (R97): `TX_START`. -/
def cmdTxStart : Byte := 0x02
/-- `FORCE_IDLE` (R97). -/
def cmdForceIdle : Byte := 0x03
/-- `LISTEN` (R97). -/
def cmdListen : Byte := 0x06
/-- `IDLE` (R97). -/
def cmdIdle : Byte := 0x08
/-- `READY` (R97). -/
def cmdReady : Byte := 0x09
/-- `SLEEP` (R97). -/
def cmdSleep : Byte := 0x0F
/-- `WAKE` (R97). -/
def cmdWake : Byte := 0x10

/-- `PIN` with `RST` set (R99). -/
def pinReset : Byte := 0x01
/-- `PIN` with `TRIG` set (R99). -/
def pinTrigger : Byte := 0x02
/-- `PIN` with every bit clear (R99). -/
def pinLow : Byte := 0x00
/-- `EVT_EN` with the three enables set (R99). -/
def evtEnAll : Byte := 0x4C
/-- `EVT_EN` with the three enables clear (R99). -/
def evtEnNone : Byte := 0x00
/-- `CTRL` with `AUTO_CRC` set (R99). -/
def ctrlAutoCrc : Byte := 0x20
/-- `TX_PWR` at full power (R99). -/
def txPwrFull : Byte := 0x00
/-- The reset channel of `REF` (41_radio_fsm.md R172). -/
def refResetChannel : Byte := 11

end Sys2Proof.Machine
end

