-- ==== Sys2Proof/Machine/Ops.lean ====
section
/-! DEFINITION. The named operations: byte storage, per-read draws, the ring primitives
(40_ring_buffer.md), the chip port and the reference chip's reactions (41_radio_fsm.md R161 to R173),
host memory (20_memory.md), the sequencer's control (10_state.md R46), faults and event delivery
(60_exceptions.md). -/

namespace Sys2Proof.Machine

/-- What a step or a meaning answers. -/
abbrev Answer := Host.Outcome State Fault Refusal

/-! ## Byte storage -/

/-- The byte last written at an address, or none where nothing was. -/
def Memory.read : Memory → Nat → Option Byte
  | [], _ => none
  | (k, v) :: t, a => if k = a then some v else Memory.read t a

/-- Write a byte, keeping the addresses strictly rising. -/
def Memory.write : Memory → Nat → Byte → Memory
  | [], a, v => [(a, v)]
  | (k, w) :: t, a, v =>
    if a < k then (a, v) :: (k, w) :: t
    else if a = k then (a, v) :: t
    else (k, w) :: Memory.write t a v

/-- The canonical form: addresses strictly rising. -/
def Memory.wf : Memory → Bool
  | [] => true
  | (a, _) :: t =>
    (match t with
     | [] => true
     | (b, _) :: _ => a < b) && Memory.wf t

/-- Every listed address is below a bound. -/
def Memory.below (bound : Nat) (m : Memory) : Bool := m.all fun c => c.1 < bound

/-! ## Draws -/

/-- The value of a byte that may never have been written: what was written, or the next per-read draw
(10_state.md R25, R42; log 9). -/
def drawn (c : Option Byte) (s : State) : Byte × State :=
  match c with
  | some b => (b, s)
  | none => (Config.drawByte s.draws, { s with draws := s.draws + 1 })

/-! ## Rings (40_ring_buffer.md) -/

/-- The index of the `i`-th byte from the oldest (10_state.md R24). -/
def Ring.slot (r : Ring) (i : Nat) : Nat := (r.current.toNat + i) % r.size.toNat

/-- The contents, oldest first; none for a byte never written (R24, R25). -/
def Ring.contents (r : Ring) : List (Option Byte) :=
  (List.range r.length.toNat).map fun i => Memory.read r.store (r.slot i)

/-- The ring with its oldest byte removed (R122). -/
def Ring.popped (r : Ring) : Ring :=
  { r with
    current := BitVec.ofNat 16 ((r.current.toNat + 1) % r.size.toNat)
    length := BitVec.ofNat 16 (r.length.toNat - 1) }

/-- The ring with a byte appended (R123). -/
def Ring.pushed (r : Ring) (b : Byte) : Ring :=
  { r with
    store := Memory.write r.store (r.slot r.length.toNat) b
    length := BitVec.ofNat 16 (r.length.toNat + 1) }

/-- One of the two rings. -/
def State.ring (s : State) (sel : RingSel) : Ring :=
  match sel with
  | .rx => s.rx
  | .tx => s.tx

/-- Replace one of the two rings. -/
def State.setRing (s : State) (sel : RingSel) (r : Ring) : State :=
  match sel with
  | .rx => { s with rx := r }
  | .tx => { s with tx := r }

/-- RESET (R120). -/
def ringReset (sel : RingSel) (s : State) : State :=
  s.setRing sel { s.ring sel with length := 0, current := 0 }

/-- PEEK (R121). -/
def ringPeek (sel : RingSel) (s : State) : OpResult × State :=
  if (s.ring sel).length = 0 then (.empty, s)
  else
    let r := drawn (Memory.read (s.ring sel).store (s.ring sel).current.toNat) s
    (.ok r.1, r.2)

/-- POP (R122). -/
def ringPop (sel : RingSel) (s : State) : OpResult × State :=
  if (s.ring sel).length = 0 then (.empty, s)
  else
    let r := drawn (Memory.read (s.ring sel).store (s.ring sel).current.toNat) s
    (.ok r.1, r.2.setRing sel (s.ring sel).popped)

/-- PUSH (R123). -/
def ringPush (sel : RingSel) (b : Byte) (s : State) : OpResult × State :=
  if (s.ring sel).length.toNat < (s.ring sel).size.toNat then
    (.ok b, s.setRing sel ((s.ring sel).pushed b))
  else (.full, s)

/-- CAPREM (R125). -/
def ringCapRem (sel : RingSel) (s : State) : Nat :=
  (s.ring sel).size.toNat - (s.ring sel).length.toNat

/-- ISEMPTY (R126): 1 for true, 0 for false. -/
def ringIsEmpty (sel : RingSel) (s : State) : Nat :=
  if (s.ring sel).length = 0 then 1 else 0

/-- FLUSH (R127). -/
def ringFlush (sel : RingSel) (s : State) : State :=
  s.setRing sel { s.ring sel with length := 0 }

/-! ## Events (60_exceptions.md R264) -/

/-- An event fires: its latch is set if its enable is 1; else the event is lost. -/
def fireEvent (e : Event) (s : State) : State :=
  if s.en.get e then { s with pend := s.pend.set e true } else s

/-! ## The chip port -/

/-- `STATE()`, bits 4:0 of `TRX_STATUS` (41_radio_fsm.md). -/
def chipState (s : State) : BitVec 5 := s.chip.trxStatus.extractLsb' 0 5

/-- `ChipRead(QUALITY_LIVE)`: a draw where neither `AIR` nor `CHIP` has written it, and while the chip
does not report `LISTENING` (10_state.md R37, 93_implementation_defined.md U8; log 10). -/
def readQuality (s : State) : Byte × State :=
  drawn (if chipState s = stListening then s.chip.qualityLive else none) s

/-- `ChipRead(FB[i])` (10_state.md R41, R42). -/
def readFb (i : Nat) (s : State) : Byte × State := drawn (Memory.read s.chip.fb i) s

/-- `ChipRead(FB[i..i+n-1])`, lowest index first. -/
def readFbRange (i : Nat) : Nat → State → List Byte × State
  | 0, s => ([], s)
  | n + 1, s =>
    let r := readFb i s
    let t := readFbRange (i + 1) n r.2
    (r.1 :: t.1, t.2)

/-- Put a byte into the frame buffer. -/
def putFb (i : Nat) (v : Byte) (s : State) : State :=
  { s with chip.fb := Memory.write s.chip.fb i v }

/-- `ChipWrite(FB[i], v)`, at index `0x80 + i` of the chip port (10_state.md R40): where nothing stands
there the address does not exist (20_memory.md R60 (c); log 18). -/
def writeFb (i : Nat) (v : Byte) (s : State) : Answer :=
  if (chipPortAt (ChipPort.fb i).index).isSome then .next (putFb i v s)
  else .fault (.noSuchFrameByte i)

/-- The emission record, built from `FB` as it is (43_frame_assembler.md R206). -/
def emissionRecord (s : State) : TxRecord × State :=
  let l := readFb 0 s
  if 2 ≤ l.1.toNat ∧ l.1.toNat ≤ Config.frameMax then
    let p := readFbRange 1 (l.1.toNat - 2) l.2
    ({ len := l.1, payload := some p.1 }, p.2)
  else ({ len := l.1, payload := none }, l.2)

/-- The chip emits the frame that stands in `FB`, spending a grant (41_radio_fsm.md R163 (c)). -/
def emitFrame (s : State) : State :=
  let e := emissionRecord s
  { e.2 with txLog := e.2.txLog ++ [e.1], chip.grants := e.2.chip.grants - 1 }

/-- Set the activity state the chip reports, its bits 7:5 of `TRX_STATUS` kept. -/
def setChipState (code : BitVec 5) (s : State) : State :=
  { s with chip.trxStatus := s.chip.trxStatus.extractLsb' 5 3 ++ code }

/-- Set `armed` of the reference chip. -/
def setArmed (v : Bool) (s : State) : State := { s with chip.armed := v }

/-- `REF` on `TX_START`, and on the trigger pulse (R165, R173). -/
def refTransmit (s : State) : State :=
  if chipState s = stReady ∧ s.chip.armed then setArmed false (fireEvent .txComplete (emitFrame s)) else s

/-- `REF` on `IDLE` and on `FORCE_IDLE` (R166, R168). -/
def refToIdle (s : State) : State :=
  if chipState s = stAsleep then s else setArmed false (setChipState stIdle s)

/-- `REF` on `LISTEN` (R167). -/
def refListen (s : State) : State :=
  if chipState s = stIdle ∨ chipState s = stReady ∨ chipState s = stListening then
    setArmed false (setChipState stListening s)
  else s

/-- `REF` on `READY` (R169). -/
def refReady (s : State) : State :=
  if chipState s = stIdle ∨ chipState s = stListening ∨ chipState s = stReady then
    setArmed true (setChipState stReady s)
  else s

/-- `REF` on `SLEEP` (R170). -/
def refSleep (s : State) : State :=
  if chipState s = stIdle then setChipState stAsleep s else s

/-- `REF` on `WAKE` (R171). -/
def refWake (s : State) : State :=
  if chipState s = stAsleep then setChipState stIdle s else s

/-- `REF` on a write of `TRX_CMD` (R164 to R171); any other code leaves it unchanged. -/
def refCommand (v : Byte) (s : State) : State :=
  match (v.extractLsb' 0 5).toNat with
  | 0x02 => refTransmit s
  | 0x03 => refToIdle s
  | 0x06 => refListen s
  | 0x08 => refToIdle s
  | 0x09 => refReady s
  | 0x0F => refSleep s
  | 0x10 => refWake s
  | _ => s

/-- `REF` on the reset pulse going high (R172). -/
def refReset (s : State) : State :=
  let s := setArmed false (setChipState stIdle s)
  { s with chip.evtEn := 0, chip.ctrl := 0, chip.txPwr := 0, chip.channel := refResetChannel }

/-- `REF` on a write of `PIN` (R172, R173). -/
def refPin (v : Byte) (s : State) : State :=
  if v = pinReset then refReset s else if v = pinTrigger then refTransmit s else s

/-- Each `TX_START` write and each `PIN` write of 0x02 grants one emission (R163 (c)). -/
def grantEmission (s : State) : State := { s with chip.grants := s.chip.grants + 1 }

/-- What the chip does inside the step of a `TRX_CMD` write. -/
def reactCommand (v : Byte) (s : State) : State :=
  match s.chipModel with
  | .anyChip => s
  | .ref => refCommand v s

/-- What the chip does inside the step of a `PIN` write. -/
def reactPin (v : Byte) (s : State) : State :=
  match s.chipModel with
  | .anyChip => s
  | .ref => refPin v s

/-- `ChipWrite` of a register (R161; 10_state.md R40). A write of `EVT_EN` sets the enables and clears
each latch whose enable is now 0 (60_exceptions.md R266). -/
def chipWrite (r : ChipReg) (v : Byte) (s : State) : State :=
  match r with
  | .trxCmd =>
    let s := { s with chip.trxCmd := v }
    reactCommand v (if v.extractLsb' 0 5 = cmdTxStart.extractLsb' 0 5 then grantEmission s else s)
  | .evtEn =>
    { s with chip.evtEn := v, en := eventEnables v, pend := s.pend.mask (eventEnables v) }
  | .ctrl => { s with chip.ctrl := v }
  | .channel => { s with chip.channel := v }
  | .txPwr => { s with chip.txPwr := v }
  | .pin =>
    let s := { s with chip.pin := v }
    reactPin v (if v = pinTrigger then grantEmission s else s)

/-! ## Host memory (20_memory.md R75) -/

/-- The byte host memory holds at an address. -/
def hostByteAt (s : State) (a : Nat) : Byte := (Memory.read s.hostMem a).getD (Config.hostByte a)

/-- Put a byte into host memory. -/
def putHost (a : Nat) (v : Byte) (s : State) : State :=
  { s with hostMem := Memory.write s.hostMem a v }

/-- `MemWrite(a, 1, v)`: an address above 2^32 - 1 does not exist (R60 (b)). -/
def memWrite (a : Nat) (v : Byte) (s : State) : Answer :=
  if a < Config.hostSpace then .next (putHost a v s) else .fault (.noSuchHostAddress a)

/-- `MemRead(a, 1)`, its byte given to the rest of the step. -/
def memRead (a : Nat) (s : State) (k : Byte → Answer) : Answer :=
  if a < Config.hostSpace then k (hostByteAt s a) else .fault (.noSuchHostAddress a)

/-! ## The sequencer's control (10_state.md R46) -/

/-- Go on in an answer's next state. -/
def andThen (a : Answer) (f : State → Answer) : Answer :=
  match a with
  | .next s => f s
  | .fault r => .fault r
  | .refused r => .refused r

/-- Move the top frame to a step, with its locals. -/
def moveTo (l : Label) (x : Locals) (rest : List Frame) (s : State) : State :=
  { s with seq := .run { label := l, loc := x } rest }

/-- `return v` in a command routine: the command ends (R46, 30_encoding.md R96). -/
def finish (v : Int) (s : State) : State :=
  { s with result := encodeResult v, status.busy := false, seq := .idle }

/-- `raise Fault(code)`: the command ends at once, `RESULT` unchanged (R46, 60_exceptions.md R262). -/
def raiseFault (c : FaultCode) (s : State) : State :=
  { s with status := { s.status.raise c with busy := false }, seq := .idle }

/-- `call R`: a frame for the subroutine on top of the stack. Without a caller the subroutine runs as
the one routine of the sequencer, which is then busy (log 16). -/
def callSub (f : Frame) (s : State) : State :=
  match s.seq with
  | .idle => { s with seq := .run f [], status.busy := true }
  | .run top rest => { s with seq := .run f (top :: rest) }

/-- `return v` in a subroutine: pop its frame and give the value to the caller, which stands at the
step after the call (R46). Without a caller the sequencer is idle again (log 16). The frame below a
subroutine started by an issued code takes the value as a caller does: the model's choice (log 22). -/
def returnSub (v : OpResult) (give : Locals → Locals) (rest : List Frame) (s : State) : State :=
  match rest with
  | [] => { s with seq := .idle, status.busy := false, opRes := v }
  | f :: fs => { s with seq := .run { f with loc := give f.loc } fs }

/-- Return of FORCE_IDLE: `ok <- call FORCE_IDLE`. -/
def returnFlag (ok : Bool) (rest : List Frame) (s : State) : State :=
  returnSub (.num (if ok then 1 else 0)) (fun x => { x with ok := ok }) rest s

/-- Return of PUT_ONE and of PUSH_BLOCKING: `r <- call ...`. No routine of the spec calls PUSH_BLOCKING
(40_ring_buffer.md R124), so that its value goes to the local `r` of the frame below is the model's choice
(log 22). -/
def returnRing (r : OpResult) (rest : List Frame) (s : State) : State :=
  returnSub r (fun x => { x with r := r }) rest s

/-- Return of LOAD_AND_SEND: its result 0 is ignored (43_frame_assembler.md R200). -/
def returnIgnored (rest : List Frame) (s : State) : State :=
  returnSub (.num 0) (fun x => x) rest s

/-- A host command reaches the block (30_encoding.md R92): lost with `OVR` while `BUSY`; else its
routine starts, with `ADDR` latched beside the fields of the word. -/
def acceptCommand (l : Label) (x : Locals) (s : State) : State :=
  if s.status.busy then { s with status := s.status.raise .ovr }
  else { s with status.busy := true, seq := .run { label := l, loc := { x with a32 := s.addr } } [] }

/-! ## Taking an event (60_exceptions.md R265, R269, R270) -/

/-- Handler return: the end of the step. Nothing was saved, so nothing is restored (R270). -/
def handlerReturn (s : State) : State := s

/-- Handler entry: the latch taken is cleared, no state is saved and no mode changes; then the handler's
body runs to its end in the same step (R265, R268, R269). -/
def takeEvent (e : Event) (body : State → State) (s : State) : State :=
  handlerReturn (body { s with pend := s.pend.set e false })

/-- The result latch of an issued internal operation (log 15). -/
def latch (r : OpResult × State) : State := { r.2 with opRes := r.1 }

end Sys2Proof.Machine
end

