-- ==== Sys2Proof/Machine/Environment.lean ====
section
/-! DEFINITION. The steps of the transceiver `CHIP` (41_radio_fsm.md R163) and of the air `AIR`
(42_event_handlers.md R180). A step that is not enabled is not taken: nothing changes (log 12). -/

namespace Sys2Proof.Machine

/-- Change the chip's own copy of a register (93_implementation_defined.md U2): the block is not told. -/
def setCopy (r : ChipReg) (v : Byte) (c : Chip) : Chip :=
  match r with
  | .trxCmd => { c with trxCmd := v }
  | .evtEn => { c with evtEn := v }
  | .ctrl => { c with ctrl := v }
  | .channel => { c with channel := v }
  | .txPwr => { c with txPwr := v }
  | .pin => { c with pin := v }

/-- A step of a chip R163 admits. -/
def chipAct (c : ChipStep) (s : State) : State :=
  match c with
  | .setStatus v => { s with chip.trxStatus := v }
  | .setQuality v => { s with chip.qualityLive := some v }
  | .emit => if 0 < s.chip.grants then emitFrame s else s
  | .fireTxComplete => fireEvent .txComplete s
  | .setCopy r v => { s with chip := setCopy r v s.chip }
  | .writeFb i v => if i < Config.fbSize then putFb i v s else s

/-- A turn of `CHIP`: the reference chip takes no step of its own (R164). -/
def chipStep (c : ChipStep) (s : State) : State :=
  match s.chipModel with
  | .anyChip => chipAct c s
  | .ref => s

/-- Put bytes into the frame buffer from index `i` up. -/
def putFbRange (i : Nat) : List Byte → State → State
  | [], s => s
  | b :: bs, s => putFbRange (i + 1) bs (putFb i b s)

/-- Set `QUALITY_LIVE` where the step says so. -/
def setQuality (q : Option Byte) (s : State) : State :=
  match q with
  | some v => { s with chip.qualityLive := some v }
  | none => s

/-- Whether a step of `AIR` is enabled (R180): a frame starts only while the air is quiet, no frame end
is pending and the chip reports `LISTENING`; a frame ends or is abandoned only inside one; a frame end
brings exactly the bytes `FB[1..min(L,127)]`. That a frame end asks only for `InFrame`, whatever the chip
reports by then, is the side the model takes where the spec's files differ: R180 (b) asks no more, while
R207 (c), R320 and R326 say that `AIR` receives only while the chip reports `LISTENING` (DESIGN CHOICE,
log 24). -/
def airEnabled (a : AirStep) (s : State) : Bool :=
  match a with
  | .frameStart _ => s.airPhase == .quiet && !s.pend.frameEnd && chipState s == stListening
  | .frameEnd len bytes _ =>
    s.airPhase == .inFrame && bytes.length == min len.toNat Config.frameMax
  | .abandon => s.airPhase == .inFrame

/-- What an enabled step of `AIR` does (R180). -/
def airAct (a : AirStep) (s : State) : State :=
  match a with
  | .frameStart q => fireEvent .frameStart { setQuality (some q) s with airPhase := .inFrame }
  | .frameEnd len bytes q =>
    fireEvent .frameEnd
      { putFbRange 1 bytes (putFb 0 len (setQuality q s)) with airPhase := .quiet }
  | .abandon => { s with airPhase := .quiet }

/-- A turn of `AIR`. -/
def airStep (a : AirStep) (s : State) : State := if airEnabled a s then airAct a s else s

end Sys2Proof.Machine
end

