-- ==== Sys2Proof/Machine/ChipCommands.lean ====
section
/-! DEFINITION. The chip commands, `TRXCMD` codes: each is the block's write of `TRX_CMD`, in whose step
the reference chip reacts (41_radio_fsm.md R161, R164 to R171); any other chip reacts in its own steps
(R163). -/

namespace Sys2Proof.Machine

/-- `TRX_TX_START` (R165). -/
def execTrxTxStart (s : State) : Answer := .next (chipWrite .trxCmd cmdTxStart s)

/-- `TRX_FORCE_IDLE` (R166). -/
def execTrxForceIdle (s : State) : Answer := .next (chipWrite .trxCmd cmdForceIdle s)

/-- `TRX_LISTEN` (R167). -/
def execTrxListen (s : State) : Answer := .next (chipWrite .trxCmd cmdListen s)

/-- `TRX_IDLE` (R168). -/
def execTrxIdle (s : State) : Answer := .next (chipWrite .trxCmd cmdIdle s)

/-- `TRX_READY` (R169). -/
def execTrxReady (s : State) : Answer := .next (chipWrite .trxCmd cmdReady s)

/-- `TRX_SLEEP` (R170). -/
def execTrxSleep (s : State) : Answer := .next (chipWrite .trxCmd cmdSleep s)

/-- `TRX_WAKE` (R171). -/
def execTrxWake (s : State) : Answer := .next (chipWrite .trxCmd cmdWake s)

end Sys2Proof.Machine
end

