-- ==== Sys2Proof/Machine/Handlers.lean ====
section
/-! DEFINITION. The event handlers (42_event_handlers.md R181, R182, R185) and the event vectors that
run them (30_encoding.md R101). -/

namespace Sys2Proof.Machine

/-- The body of onFrameStart: capture the live signal-quality byte (R181). -/
def onFrameStart (s : State) : State :=
  let q := readQuality s
  { q.2 with qcap := q.1 }

/-- The push loop of onFrameEnd: each byte that finds `RX` full is dropped and counted, mod 2^16
(R182, R184; 10_state.md R27). -/
def acceptPayload : List Byte → State → State
  | [], s => s
  | b :: bs, s =>
    let r := ringPush .rx b s
    acceptPayload bs
      (if r.1 = .full then { r.2 with rxOverflow := r.2.rxOverflow + 1 } else r.2)

/-- The body of onFrameEnd (R182, R183): a frame whose captured CRC_VALID is clear leaves no trace; a
length above `FRAME_MAX` sets `RXLEN` and pushes nothing; else all but the last two frame bytes are
pushed into `RX`. -/
def onFrameEnd (s : State) : State :=
  if crcValid s.qcap then
    let l := readFb 0 s
    if Config.frameMax < l.1.toNat then { l.2 with status := l.2.status.raise .rxlen }
    else
      let scratch := readFbRange 1 l.1.toNat l.2
      acceptPayload (scratch.1.take (l.1.toNat - 2)) scratch.2
  else s

/-- The body of onTransmitComplete: no effect (R185). -/
def onTransmitComplete (s : State) : State := s

/-- `EVT_FRAME_START`, vector 0 (R181). -/
def execEvtFrameStart (s : State) : Answer := .next (takeEvent .frameStart onFrameStart s)

/-- `EVT_FRAME_END`, vector 1 (R182). -/
def execEvtFrameEnd (s : State) : Answer := .next (takeEvent .frameEnd onFrameEnd s)

/-- `EVT_TX_COMPLETE`, vector 2 (R185). -/
def execEvtTxComplete (s : State) : Answer := .next (takeEvent .txComplete onTransmitComplete s)

end Sys2Proof.Machine
end

