-- ==== Sys2Proof/Machine/Rings.lean ====
section
/-! DEFINITION. The ring primitives as issued operations, `UOP` codes (30_encoding.md R100): one
meaning for each primitive on each ring, over the shared operations of Ops.lean. The operand byte of
PUSH and PUSH_BLOCKING is `opArg`, and the result of a primitive of one step goes to `opRes` (log 15). -/

namespace Sys2Proof.Machine

/-- The frame a call of PUSH_BLOCKING makes (40_ring_buffer.md R124). -/
def pushBlockingFrame (sel : RingSel) (b : Byte) : Frame :=
  { label := .pushBlocking .S1, loc := { b := b, sel := sel } }

/-- `RESET.RX` (R120). -/
def execUopResetRx (s : State) : Answer := .next (latch (.none, ringReset .rx s))

/-- `PEEK.RX` (R121). -/
def execUopPeekRx (s : State) : Answer := .next (latch (ringPeek .rx s))

/-- `POP.RX` (R122). -/
def execUopPopRx (s : State) : Answer := .next (latch (ringPop .rx s))

/-- `PUSH.RX` (R123). -/
def execUopPushRx (s : State) : Answer := .next (latch (ringPush .rx s.opArg s))

/-- `PUSHB.RX` (R124): the call of the sequencer subroutine. Its result goes to the local `r` of the frame
below, or to `opRes` where there is none: the model's choice (log 16, log 22). -/
def execUopPushbRx (s : State) : Answer := .next (callSub (pushBlockingFrame .rx s.opArg) s)

/-- `CAPREM.RX` (R125). -/
def execUopCapremRx (s : State) : Answer := .next (latch (.num (ringCapRem .rx s), s))

/-- `ISEMPTY.RX` (R126). -/
def execUopIsemptyRx (s : State) : Answer := .next (latch (.num (ringIsEmpty .rx s), s))

/-- `FLUSH.RX` (R127). -/
def execUopFlushRx (s : State) : Answer := .next (latch (.none, ringFlush .rx s))

/-- `RESET.TX` (R120). -/
def execUopResetTx (s : State) : Answer := .next (latch (.none, ringReset .tx s))

/-- `PEEK.TX` (R121). -/
def execUopPeekTx (s : State) : Answer := .next (latch (ringPeek .tx s))

/-- `POP.TX` (R122). -/
def execUopPopTx (s : State) : Answer := .next (latch (ringPop .tx s))

/-- `PUSH.TX` (R123). -/
def execUopPushTx (s : State) : Answer := .next (latch (ringPush .tx s.opArg s))

/-- `PUSHB.TX` (R124): the call of the sequencer subroutine. Its result goes as that of `PUSHB.RX` does
(log 16, log 22). -/
def execUopPushbTx (s : State) : Answer := .next (callSub (pushBlockingFrame .tx s.opArg) s)

/-- `CAPREM.TX` (R125). -/
def execUopCapremTx (s : State) : Answer := .next (latch (.num (ringCapRem .tx s), s))

/-- `ISEMPTY.TX` (R126). -/
def execUopIsemptyTx (s : State) : Answer := .next (latch (.num (ringIsEmpty .tx s), s))

/-- `FLUSH.TX` (R127). -/
def execUopFlushTx (s : State) : Answer := .next (latch (.none, ringFlush .tx s))

end Sys2Proof.Machine
end

