-- ==== Sys2Proof/Machine/Subroutines.lean ====
section
/-! DEFINITION. The sequencer subroutines, step by step: FORCE_IDLE (41_radio_fsm.md R160),
LOAD_AND_SEND (43_frame_assembler.md R200), PUT_ONE (44_transport_api.md R226) and PUSH_BLOCKING
(40_ring_buffer.md R124); and the `SEQ` ids that call them (30_encoding.md R101). A `Delay` step has no
effect but to move on (20_memory.md R68). -/

namespace Sys2Proof.Machine

/-- FORCE_IDLE (R160): `x` are the frame's locals, `rest` the frames below it. -/
def stepForceIdle (l : ForceIdleStep) (x : Locals) (rest : List Frame) (s : State) : Answer :=
  match l with
  | .S1 => .next (moveTo (.forceIdle .S2) x rest (chipWrite .trxCmd cmdIdle s))
  | .S2 => .next (moveTo (.forceIdle .S3) x rest s)
  | .S3 =>
    .next (if chipState s = stIdle then returnFlag true rest s else moveTo (.forceIdle .S4) x rest s)
  | .S4 => .next (moveTo (.forceIdle .S5) x rest (chipWrite .trxCmd cmdForceIdle s))
  | .S5 => .next (moveTo (.forceIdle .S6) x rest s)
  | .S6 =>
    .next (if chipState s = stIdle then returnFlag true rest s else moveTo (.forceIdle .S7) x rest s)
  | .S7 => .next (moveTo (.forceIdle .S8) x rest (chipWrite .trxCmd cmdWake s))
  | .S8 => .next (moveTo (.forceIdle .S9) x rest s)
  | .S9 =>
    .next (if chipState s = stIdle then returnFlag true rest s else moveTo (.forceIdle .S10) x rest s)
  | .S10 => .next (returnFlag false rest s)

/-- LOAD_AND_SEND (R200). While the lock wait of S2 is false the step is not enabled and the sequencer
stays (20_memory.md R69). -/
def stepLoadAndSend (l : LoadAndSendStep) (x : Locals) (rest : List Frame) (s : State) : Answer :=
  match l with
  | .S1 => .next (moveTo (.loadAndSend .S2) x rest (chipWrite .trxCmd cmdReady s))
  | .S2 => .next (if chipState s = stReady then moveTo (.loadAndSend .S3) x rest s else s)
  | .S3 => .next (moveTo (.loadAndSend .S4) { x with n := 0 } rest s)
  | .S4 =>
    .next
      (if x.n = s.maxPayload - 1 then moveTo (.loadAndSend .S6) x rest s
       else
         match ringPop .tx s with
         | (.ok b, s') => moveTo (.loadAndSend .S5) { x with b := b } rest s'
         | (_, s') => moveTo (.loadAndSend .S6) x rest s')
  | .S5 =>
    andThen (writeFb (1 + x.n) x.b s) fun s =>
      .next (moveTo (.loadAndSend .S4) { x with n := x.n + 1 } rest s)
  | .S6 => andThen (writeFb (1 + x.n) 0x00 s) fun s => .next (moveTo (.loadAndSend .S7) x rest s)
  | .S7 =>
    andThen (writeFb 0 (BitVec.ofNat 8 (x.n + 2)) s) fun s =>
      .next (moveTo (.loadAndSend .S8) x rest s)
  | .S8 => .next (moveTo (.loadAndSend .S9) x rest (chipWrite .trxCmd cmdTxStart s))
  | .S9 => .next (moveTo (.loadAndSend .S10) x rest (chipWrite .pin pinTrigger s))
  | .S10 => .next (moveTo (.loadAndSend .S11) x rest (chipWrite .pin pinLow s))
  | .S11 => .next (moveTo (.loadAndSend .S12) x rest s)
  | .S12 => .next (returnIgnored rest (chipWrite .trxCmd cmdListen s))

/-- The frame a call of FORCE_IDLE makes. -/
def forceIdleFrame : Frame := { label := .forceIdle .S1, loc := {} }

/-- The frame a call of LOAD_AND_SEND makes. -/
def loadAndSendFrame : Frame := { label := .loadAndSend .S1, loc := {} }

/-- The frame a call of PUT_ONE makes. -/
def putOneFrame (b : Byte) : Frame := { label := .putOne .S1, loc := { b := b } }

/-- PUT_ONE (R226): the push and the threshold test are one atomic step, and the test follows every
push attempt. -/
def stepPutOne (l : PutOneStep) (x : Locals) (rest : List Frame) (s : State) : Answer :=
  match l with
  | .S1 =>
    let r := ringPush .tx x.b s
    .next
      (if r.2.tx.length.toNat < r.2.autoflush then returnRing r.1 rest r.2
       else moveTo (.putOne .S2) { x with r := r.1 } rest r.2)
  | .S2 => .next (callSub loadAndSendFrame (moveTo (.putOne .S3) x rest s))
  | .S3 => .next (returnRing x.r rest s)

/-- PUSH_BLOCKING (R124). -/
def stepPushBlocking (l : PushBlockingStep) (x : Locals) (rest : List Frame) (s : State) : Answer :=
  match l with
  | .S1 => .next (moveTo (.pushBlocking .S2) { x with i := 0 } rest s)
  | .S2 =>
    let r := ringPush x.sel x.b s
    .next
      (if r.1 = .full then moveTo (.pushBlocking .S3) { x with r := r.1 } rest r.2
       else returnRing r.1 rest r.2)
  | .S3 => .next (moveTo (.pushBlocking .S4) x rest s)
  | .S4 =>
    .next
      (if x.i + 1 < Config.pbAttempts then moveTo (.pushBlocking .S2) { x with i := x.i + 1 } rest s
       else returnRing .full rest s)

/-- `SEQ_FORCE_IDLE`, id 0x1: the call of FORCE_IDLE (R160). -/
def execSeqForceIdle (s : State) : Answer := .next (callSub forceIdleFrame s)

/-- `SEQ_LOAD_AND_SEND`, id 0x2: the call of LOAD_AND_SEND (R200). -/
def execSeqLoadAndSend (s : State) : Answer := .next (callSub loadAndSendFrame s)

/-- `SEQ_PUT_ONE`, id 0x3: the call of PUT_ONE on the operand byte `opArg` (R226; log 15). -/
def execSeqPutOne (s : State) : Answer := .next (callSub (putOneFrame s.opArg) s)

end Sys2Proof.Machine
end

