-- ==== Sys2Proof/Machine/Lifecycle.lean ====
section
/-! DEFINITION. The lifecycle commands, step by step: INIT (41_radio_fsm.md R150 to R153), TERMINATE
(R154) and ISACTIVE (R155); and their meanings as accepted `CMD` writes (30_encoding.md R92). -/

namespace Sys2Proof.Machine

/-- INIT (R150). While the wait of S5 is false the step is not enabled and the sequencer stays. -/
def stepInit (l : InitStep) (x : Locals) (rest : List Frame) (s : State) : Answer :=
  match l with
  | .S1 =>
    .next (if s.initialized = 0 then moveTo (.init .S2) x rest s else raiseFault .initact s)
  | .S2 =>
    .next
      (moveTo (.init .S3)
        { x with ch := clampChannel x.a8, phys := physicalChannel (clampChannel x.a8) } rest s)
  | .S3 => .next (moveTo (.init .S4) x rest (ringReset .rx s))
  | .S4 => .next (moveTo (.init .S5) x rest (ringReset .tx s))
  | .S5 => .next (if chipState s = stBusy then s else moveTo (.init .S6) x rest s)
  | .S6 => .next (moveTo (.init .S7) { x with st := chipState s } rest s)
  | .S7 =>
    .next (moveTo (.init .S8) x rest (if x.st = stAsleep then chipWrite .trxCmd cmdWake s else s))
  | .S8 => .next (moveTo (.init .S9) x rest (chipWrite .pin pinReset s))
  | .S9 => .next (moveTo (.init .S10) x rest (chipWrite .pin pinLow s))
  | .S10 => .next (moveTo (.init .S11) x rest (chipWrite .evtEn evtEnNone s))
  | .S11 => .next (callSub forceIdleFrame (moveTo (.init .S12) x rest s))
  | .S12 => .next (if x.ok then moveTo (.init .S13) x rest s else finish 0 s)
  | .S13 => .next (moveTo (.init .S14) x rest (chipWrite .ctrl ctrlAutoCrc s))
  | .S14 => .next (moveTo (.init .S15) x rest (chipWrite .evtEn evtEnAll s))
  | .S15 => .next (moveTo (.init .S16) x rest (chipWrite .channel x.phys s))
  | .S16 => .next (moveTo (.init .S17) x rest (chipWrite .txPwr txPwrFull s))
  | .S17 => .next (moveTo (.init .S18) x rest (chipWrite .trxCmd cmdListen s))
  | .S18 => .next (finish 0 { s with rxOverflow := 0, txIdle := true, initialized := x.ch })

/-- TERMINATE (R154): the result of FORCE_IDLE is ignored. -/
def stepTerminate (l : TerminateStep) (x : Locals) (rest : List Frame) (s : State) : Answer :=
  match l with
  | .S1 => .next (if s.initialized = 0 then finish 0 s else moveTo (.terminate .S2) x rest s)
  | .S2 =>
    .next
      (moveTo (.terminate .S3) x rest { s with initialized := 0, rxOverflow := 0, txIdle := false })
  | .S3 => .next (callSub forceIdleFrame (moveTo (.terminate .S4) x rest s))
  | .S4 => .next (moveTo (.terminate .S5) x rest (chipWrite .trxCmd cmdSleep s))
  | .S5 => .next (moveTo (.terminate .S6) x rest (chipWrite .evtEn evtEnNone s))
  | .S6 => .next (finish 0 s)

/-- ISACTIVE (R155). -/
def stepIsActive (l : IsActiveStep) (s : State) : Answer :=
  match l with
  | .S1 => .next (finish s.initialized.toNat s)

/-- `INIT` (R150): the accepted write starts the routine with `a8` = the channel. -/
def execInit (channel : Byte) (s : State) : Answer :=
  .next (acceptCommand (.init .S1) { a8 := channel } s)

/-- `TERMINATE` (R154). -/
def execTerminate (s : State) : Answer := .next (acceptCommand (.terminate .S1) {} s)

/-- `ISACTIVE` (R155). -/
def execIsactive (s : State) : Answer := .next (acceptCommand (.isActive .S1) {} s)

end Sys2Proof.Machine
end

