-- ==== Sys2Proof/Machine/Receive.lean ====
section
/-! DEFINITION. The receive-side commands, step by step (44_transport_api.md R220 to R225), and their
meanings as accepted `CMD` writes (30_encoding.md R92). -/

namespace Sys2Proof.Machine

/-- The result of POP at the host boundary (00_scope.md R11): -1 for `EMPTY`. -/
def byteOrMinusOne (r : OpResult) : Int :=
  match r with
  | .ok b => b.toNat
  | _ => -1

/-- AVAILABLE (R220). -/
def stepAvailable (l : AvailableStep) (x : Locals) (rest : List Frame) (s : State) : Answer :=
  match l with
  | .S1 => .next (if s.initialized = 0 then finish (-1) s else moveTo (.available .S2) x rest s)
  | .S2 => .next (finish s.rx.length.toNat s)

/-- GETBYTE (R221). -/
def stepGetByte (l : GetByteStep) (x : Locals) (rest : List Frame) (s : State) : Answer :=
  match l with
  | .S1 => .next (if s.initialized = 0 then finish (-1) s else moveTo (.getByte .S2) x rest s)
  | .S2 =>
    let r := ringPop .rx s
    .next (finish (byteOrMinusOne r.1) r.2)

/-- GETBUFFER (R222, R223). -/
def stepGetBuffer (l : GetBufferStep) (x : Locals) (rest : List Frame) (s : State) : Answer :=
  match l with
  | .S1 => .next (if s.initialized = 0 then finish (-1) s else moveTo (.getBuffer .S2) x rest s)
  | .S2 =>
    .next
      (if rangeCrosses x.a32 x.a16.toNat then raiseFault .haddr s
       else moveTo (.getBuffer .S3) { x with i := 0 } rest s)
  | .S3 =>
    if x.i = x.a16.toNat then .next (moveTo (.getBuffer .S4) x rest s)
    else
      andThen (memWrite (x.a32.toNat + x.i) 0x00 s) fun s =>
        .next (moveTo (.getBuffer .S3) { x with i := x.i + 1 } rest s)
  | .S4 =>
    .next
      (moveTo (.getBuffer .S5) { x with n := min s.rx.length.toNat x.a16.toNat, k := 0 } rest s)
  | .S5 =>
    .next
      (if x.k = x.n then finish x.k s
       else
         match ringPop .rx s with
         | (.ok b, s') => moveTo (.getBuffer .S6) { x with c := b } rest s'
         | (_, s') => finish x.k s')
  | .S6 =>
    andThen (memWrite (x.a32.toNat + x.k) x.c s) fun s =>
      .next (moveTo (.getBuffer .S5) { x with k := x.k + 1 } rest s)

/-- FLUSHRX (R224). -/
def stepFlushRx (l : FlushRxStep) (x : Locals) (rest : List Frame) (s : State) : Answer :=
  match l with
  | .S1 => .next (if s.initialized = 0 then finish 0 s else moveTo (.flushRx .S2) x rest s)
  | .S2 => .next (moveTo (.flushRx .S3) x rest (ringFlush .rx s))
  | .S3 => .next (finish 0 { s with rxOverflow := 0 })

/-- OVFCOUNT (R225). -/
def stepOvfCount (l : OvfCountStep) (s : State) : Answer :=
  match l with
  | .S1 => .next (finish s.rxOverflow.toNat s)

/-- `AVAILABLE` (R220). -/
def execAvailable (s : State) : Answer := .next (acceptCommand (.available .S1) {} s)

/-- `GETBYTE` (R221). -/
def execGetbyte (s : State) : Answer := .next (acceptCommand (.getByte .S1) {} s)

/-- `GETBUFFER` (R222): `a16` = `maxLen`, `a32` = `ADDR` = `dest`. -/
def execGetbuffer (maxLen : Half) (s : State) : Answer :=
  .next (acceptCommand (.getBuffer .S1) { a16 := maxLen } s)

/-- `FLUSHRX` (R224). -/
def execFlushrx (s : State) : Answer := .next (acceptCommand (.flushRx .S1) {} s)

/-- `OVFCOUNT` (R225). -/
def execOvfcount (s : State) : Answer := .next (acceptCommand (.ovfCount .S1) {} s)

end Sys2Proof.Machine
end

