-- ==== Sys2Proof/Machine/Transmit.lean ====
section
/-! DEFINITION. The transmit-side commands, step by step (44_transport_api.md R227 to R230), and their
meanings as accepted `CMD` writes (30_encoding.md R92). -/

namespace Sys2Proof.Machine

/-- PUTBYTE (R227). -/
def stepPutByte (l : PutByteStep) (x : Locals) (rest : List Frame) (s : State) : Answer :=
  match l with
  | .S1 => .next (if s.initialized = 0 then finish (-1) s else moveTo (.putByte .S2) x rest s)
  | .S2 => .next (callSub (putOneFrame x.a8) (moveTo (.putByte .S3) x rest s))
  | .S3 => .next (finish (if x.r = .full then -1 else x.a8.toNat) s)

/-- PUTBUFFER (R228). -/
def stepPutBuffer (l : PutBufferStep) (x : Locals) (rest : List Frame) (s : State) : Answer :=
  match l with
  | .S1 => .next (if s.initialized = 0 then finish (-1) s else moveTo (.putBuffer .S2) x rest s)
  | .S2 =>
    .next
      (if rangeCrosses x.a32 x.a16.toNat then raiseFault .haddr s
       else moveTo (.putBuffer .S3) { x with i := 0 } rest s)
  | .S3 =>
    if x.i = x.a16.toNat then .next (finish x.a16.toNat s)
    else
      memRead (x.a32.toNat + x.i) s fun c => .next (moveTo (.putBuffer .S4) { x with c := c } rest s)
  | .S4 => .next (callSub (putOneFrame x.c) (moveTo (.putBuffer .S5) x rest s))
  | .S5 => .next (moveTo (.putBuffer .S3) { x with i := x.i + 1 } rest s)

/-- PUTSTRING (R229). -/
def stepPutString (l : PutStringStep) (x : Locals) (rest : List Frame) (s : State) : Answer :=
  match l with
  | .S1 =>
    .next
      (if s.initialized = 0 then finish (-1) s else moveTo (.putString .S2) { x with n := 0 } rest s)
  | .S2 =>
    if Config.hostSpace - 1 < x.a32.toNat + x.n then .next (raiseFault .haddr s)
    else
      memRead (x.a32.toNat + x.n) s fun c =>
        .next
          (if c = 0x00 then moveTo (.putString .S3) { x with c := c } rest s
           else if x.n = Config.strlenMax then raiseFault .strlen s
           else moveTo (.putString .S2) { x with c := c, n := x.n + 1 } rest s)
  | .S3 => .next (moveTo (.putString .S4) { x with i := 0 } rest s)
  | .S4 =>
    if x.i = x.n then .next (moveTo (.putString .S7) x rest s)
    else
      memRead (x.a32.toNat + x.i) s fun c => .next (moveTo (.putString .S5) { x with c := c } rest s)
  | .S5 => .next (callSub (putOneFrame x.c) (moveTo (.putString .S6) x rest s))
  | .S6 => .next (moveTo (.putString .S4) { x with i := x.i + 1 } rest s)
  | .S7 => .next (callSub loadAndSendFrame (moveTo (.putString .S8) x rest s))
  | .S8 => .next (finish x.n s)

/-- TRANSMITNOW (R230). -/
def stepTransmitNow (l : TransmitNowStep) (x : Locals) (rest : List Frame) (s : State) : Answer :=
  match l with
  | .S1 => .next (if s.initialized = 0 then finish 0 s else moveTo (.transmitNow .S2) x rest s)
  | .S2 => .next (callSub loadAndSendFrame (moveTo (.transmitNow .S3) x rest s))
  | .S3 => .next (finish 0 s)

/-- `PUTBYTE` (R227): `a8` = the byte. -/
def execPutbyte (b : Byte) (s : State) : Answer := .next (acceptCommand (.putByte .S1) { a8 := b } s)

/-- `PUTBUFFER` (R228): `a16` = `len`, `a32` = `ADDR` = `data`. -/
def execPutbuffer (len : Half) (s : State) : Answer :=
  .next (acceptCommand (.putBuffer .S1) { a16 := len } s)

/-- `PUTSTRING` (R229): `a32` = `ADDR` = `data`. -/
def execPutstring (s : State) : Answer := .next (acceptCommand (.putString .S1) {} s)

/-- `TRANSMITNOW` (R230). -/
def execTransmitnow (s : State) : Answer := .next (acceptCommand (.transmitNow .S1) {} s)

end Sys2Proof.Machine
end

