-- ==== Sys2Proof/Machine/Sequencer.lean ====
section
/-! DEFINITION. One step of the sequencer `SEQ` (10_state.md R45, R46): the step of the top frame. -/

namespace Sys2Proof.Machine

/-- The step at which the top frame stands. -/
def stepFrame (f : Frame) (rest : List Frame) (s : State) : Answer :=
  match f.label with
  | .init l => stepInit l f.loc rest s
  | .terminate l => stepTerminate l f.loc rest s
  | .isActive l => stepIsActive l s
  | .available l => stepAvailable l f.loc rest s
  | .getByte l => stepGetByte l f.loc rest s
  | .getBuffer l => stepGetBuffer l f.loc rest s
  | .flushRx l => stepFlushRx l f.loc rest s
  | .ovfCount l => stepOvfCount l s
  | .putByte l => stepPutByte l f.loc rest s
  | .putBuffer l => stepPutBuffer l f.loc rest s
  | .putString l => stepPutString l f.loc rest s
  | .transmitNow l => stepTransmitNow l f.loc rest s
  | .forceIdle l => stepForceIdle l f.loc rest s
  | .loadAndSend l => stepLoadAndSend l f.loc rest s
  | .putOne l => stepPutOne l f.loc rest s
  | .pushBlocking l => stepPushBlocking l f.loc rest s

/-- A step of `SEQ`; while `seq` is `Idle` none is enabled and nothing changes (log 13). -/
def seqStep (s : State) : Answer :=
  match s.seq with
  | .idle => .next s
  | .run top rest => stepFrame top rest s

end Sys2Proof.Machine
end

