-- ==== Sys2Proof/Machine/Dispatch.lean ====
section
/-! DEFINITION. The dispatch: one arm for each constructor of Instr, each a direct call of the
instruction's meaning. -/

namespace Sys2Proof.Machine

def exec (i : Instr) (s : State) : Host.Outcome State Fault Refusal :=
  match i with
  | .init channel => Sys2Proof.Machine.execInit channel s
  | .terminate => Sys2Proof.Machine.execTerminate s
  | .isactive => Sys2Proof.Machine.execIsactive s
  | .available => Sys2Proof.Machine.execAvailable s
  | .getbyte => Sys2Proof.Machine.execGetbyte s
  | .getbuffer maxLen => Sys2Proof.Machine.execGetbuffer maxLen s
  | .flushrx => Sys2Proof.Machine.execFlushrx s
  | .ovfcount => Sys2Proof.Machine.execOvfcount s
  | .putbyte b => Sys2Proof.Machine.execPutbyte b s
  | .putbuffer len => Sys2Proof.Machine.execPutbuffer len s
  | .putstring => Sys2Proof.Machine.execPutstring s
  | .transmitnow => Sys2Proof.Machine.execTransmitnow s
  | .uopResetRx => Sys2Proof.Machine.execUopResetRx s
  | .uopPeekRx => Sys2Proof.Machine.execUopPeekRx s
  | .uopPopRx => Sys2Proof.Machine.execUopPopRx s
  | .uopPushRx => Sys2Proof.Machine.execUopPushRx s
  | .uopPushbRx => Sys2Proof.Machine.execUopPushbRx s
  | .uopCapremRx => Sys2Proof.Machine.execUopCapremRx s
  | .uopIsemptyRx => Sys2Proof.Machine.execUopIsemptyRx s
  | .uopFlushRx => Sys2Proof.Machine.execUopFlushRx s
  | .uopResetTx => Sys2Proof.Machine.execUopResetTx s
  | .uopPeekTx => Sys2Proof.Machine.execUopPeekTx s
  | .uopPopTx => Sys2Proof.Machine.execUopPopTx s
  | .uopPushTx => Sys2Proof.Machine.execUopPushTx s
  | .uopPushbTx => Sys2Proof.Machine.execUopPushbTx s
  | .uopCapremTx => Sys2Proof.Machine.execUopCapremTx s
  | .uopIsemptyTx => Sys2Proof.Machine.execUopIsemptyTx s
  | .uopFlushTx => Sys2Proof.Machine.execUopFlushTx s
  | .trxTxStart => Sys2Proof.Machine.execTrxTxStart s
  | .trxForceIdle => Sys2Proof.Machine.execTrxForceIdle s
  | .trxListen => Sys2Proof.Machine.execTrxListen s
  | .trxIdle => Sys2Proof.Machine.execTrxIdle s
  | .trxReady => Sys2Proof.Machine.execTrxReady s
  | .trxSleep => Sys2Proof.Machine.execTrxSleep s
  | .trxWake => Sys2Proof.Machine.execTrxWake s
  | .seqForceIdle => Sys2Proof.Machine.execSeqForceIdle s
  | .seqLoadAndSend => Sys2Proof.Machine.execSeqLoadAndSend s
  | .seqPutOne => Sys2Proof.Machine.execSeqPutOne s
  | .evtFrameStart => Sys2Proof.Machine.execEvtFrameStart s
  | .evtFrameEnd => Sys2Proof.Machine.execEvtFrameEnd s
  | .evtTxComplete => Sys2Proof.Machine.execEvtTxComplete s

end Sys2Proof.Machine
end

