-- ==== Sys2Proof/Machine/HostPort.lean ====
section
/-! DEFINITION. The host port (10_state.md R34 to R39, 20_memory.md R73, 30_encoding.md R90, R92, R94,
R95; 70_reset_and_hazards.md R310). -/

namespace Sys2Proof.Machine

/-- An access the spec gives a meaning: 32 bits at a multiple of 4 (20_memory.md R73). -/
def hostAligned (bytes offset : Nat) : Bool := bytes == 4 && offset % 4 == 0

/-- A host write of `CMD` (R92): an opcode of R93 is executed; any other sets `OVR` while `BUSY`, else
`ILL` (R94, R95). -/
def hostWriteCmd (w : Word) (s : State) : Answer :=
  match decode .hcmd w with
  | .ok i => exec i s
  | .error _ =>
    .next { s with status := s.status.raise (if s.status.busy then .ovr else .ill) }

/-- A 32-bit host write at a multiple of 4: only `CMD` and `ADDR` are written (R39). -/
def hostWriteReg (offset : Nat) (v : Word) (s : State) : Answer :=
  match offset with
  | 0x00 => hostWriteCmd v s
  | 0x04 => .next { s with addr := v }
  | _ => .next s

/-- What a 32-bit host read at a multiple of 4 returns; an offset not in the map reads 0 (R34 to R39). -/
def hostReadReg (offset : Nat) (s : State) : Word × State :=
  match offset with
  | 0x04 => (s.addr, s)
  | 0x08 => (s.result, s)
  | 0x0C => (s.status.word, s)
  | 0x10 => let q := readQuality s; (q.1.zeroExtend 32, q.2)
  | _ => (0, s)

/-- A step of `HOST`. An access with no meaning sets `refused` and does nothing else (60_exceptions.md
R263 (a)). -/
def hostStep (a : HostAccess) (s : State) : Answer :=
  match a with
  | .read bytes offset =>
    if hostAligned bytes offset then
      let r := hostReadReg offset s
      .next { r.2 with busData := r.1 }
    else .next { s with refused := true }
  | .write bytes offset v =>
    if hostAligned bytes offset then hostWriteReg offset v s else .next { s with refused := true }
  | .memWrite addr v => .next (putHost addr.toNat v s)

end Sys2Proof.Machine
end

