-- ==== Sys2Proof/Machine/Block.lean ====
section
/-! DEFINITION. Who steps: the block (60_exceptions.md R265), or the agent whose turn the agenda names
(20_memory.md R62; log 1); and how an instruction's word is put where the next step takes it (log 2). -/

namespace Sys2Proof.Machine

/-- The block performs the operation whose code is `w` in format `f` (log 2). -/
def issueCode (f : Format) (w : Word) (s : State) : Answer :=
  match decode f w with
  | .ok i => exec i s
  | .error e => .refused (.unassignedCode e)

/-- A step of the block: while a latch is set the handler of highest priority runs and no `SEQ` step is
enabled; else the sequencer steps (R265, R267). -/
def blockStep (s : State) : Answer :=
  match pendingVector s.pend with
  | some v => issueCode .evt v s
  | none => seqStep s

/-- The step of the agent whose turn it is. -/
def takeTurn (t : Turn) (s : State) : Answer :=
  match t with
  | .block => blockStep s
  | .host a => hostStep a s
  | .chip c => .next (chipStep c s)
  | .air a => .next (airStep a s)
  | .issue f w => issueCode f w s

/-- The parameters a state carries are legal (00_scope.md R6); the ring sizes have 16 bits. -/
def State.legal (s : State) : Bool :=
  1 ≤ s.rx.size.toNat && 1 ≤ s.tx.size.toNat &&
    2 ≤ s.maxPayload && s.maxPayload ≤ Config.fbSize - 1 && 1 ≤ s.autoflush && s.autoflush ≤ 65535

/-- Whose turn it is, and the agenda left: the first turn listed, or the block's when none is. -/
def nextTurn (s : State) : Turn × State :=
  match s.agenda with
  | [] => (.block, s)
  | t :: ts => (t, { s with agenda := ts })

/-- The turn that brings an instruction's word to the machine: a host command is a 32-bit write of
`CMD`, an internal code is issued (log 2). -/
def wordTurn (f : Format) (w : Word) : Turn :=
  match f with
  | .hcmd => .host (.write 4 0x00 w)
  | .uop | .trxcmd | .sub | .evt => .issue f w

end Sys2Proof.Machine
end

