-- ==== Sys2Proof/Machine/Step.lean ====
section
/-! DEFINITION. One step of the machine, and the word of an instruction placed where the next step takes
it. -/

namespace Sys2Proof.Machine

/-- One atomic step of one agent (20_memory.md R62). A state whose parameters are illegal has no meaning
in the spec and is refused (60_exceptions.md R263 (b)). -/
def step (s : State) : Host.Outcome State Fault Refusal :=
  if s.legal then takeTurn (nextTurn s).1 (nextTurn s).2 else .refused .illegalParameters

/-- `s` with an instruction's word as its next turn (log 2, log 3): nothing else changes. -/
def State.withFetchWord (s : State) (nbits w : Nat) : State :=
  { s with agenda := wordTurn (tableFormat nbits w) (BitVec.ofNat 32 w) :: s.agenda }

end Sys2Proof.Machine
end

