-- ==== Sys2Proof/Safety.lean ====
section
/-! DEFINITION. What counts as a sound state and an undisturbed run, in the terms the statements use:
the invariant every step keeps, the shape of the sequencer's stack (10_state.md R45), and runs of many
steps. -/

namespace Sys2Proof.Machine

/-- The ring invariant of 10_state.md R23, with the storage in canonical form and inside the ring. -/
def Ring.wf (r : Ring) : Bool :=
  r.length.toNat ≤ r.size.toNat && r.current.toNat < r.size.toNat && Memory.wf r.store &&
    Memory.below r.size.toNat r.store

/-- Every byte a ring holds has been written: no occupied slot reads as a draw (10_state.md R24, R25). -/
def Ring.written (r : Ring) : Bool := r.contents.all Option.isSome

/-- The frames on the sequencer's stack, the top first. -/
def Seq.frames : Seq → List Frame
  | .idle => []
  | .run top rest => top :: rest

/-- The bounds on a frame's locals at its step: the counters never pass the ends of the host range or of
the drain of LOAD_AND_SEND (R200, R222, R228, R229), and INIT's channel is a legal one (R151). -/
def Frame.wf (maxPayload : Nat) (f : Frame) : Bool :=
  let x := f.loc
  match f.label with
  | .init .S1 | .init .S2 => true
  | .init _ => Config.chMin ≤ x.ch.toNat && x.ch.toNat ≤ Config.chMax
  | .getBuffer .S3 => x.i ≤ x.a16.toNat && !rangeCrosses x.a32 x.a16.toNat
  | .getBuffer .S4 => !rangeCrosses x.a32 x.a16.toNat
  | .getBuffer .S5 => x.k ≤ x.n && x.n ≤ x.a16.toNat && !rangeCrosses x.a32 x.a16.toNat
  | .getBuffer .S6 => x.k < x.n && x.n ≤ x.a16.toNat && !rangeCrosses x.a32 x.a16.toNat
  | .putBuffer .S3 => x.i ≤ x.a16.toNat && !rangeCrosses x.a32 x.a16.toNat
  | .putBuffer .S4 | .putBuffer .S5 => x.i < x.a16.toNat && !rangeCrosses x.a32 x.a16.toNat
  | .putString .S1 => true
  | .putString .S2 => x.n ≤ Config.strlenMax
  | .putString .S4 =>
    x.i ≤ x.n && x.n ≤ Config.strlenMax && x.a32.toNat + x.n < Config.hostSpace
  | .putString .S5 | .putString .S6 =>
    x.i < x.n && x.n ≤ Config.strlenMax && x.a32.toNat + x.n < Config.hostSpace
  | .putString _ => x.n ≤ Config.strlenMax && x.a32.toNat + x.n < Config.hostSpace
  | .loadAndSend .S4 | .loadAndSend .S6 | .loadAndSend .S7 => x.n ≤ maxPayload - 1
  | .loadAndSend .S5 => x.n < maxPayload - 1
  | _ => true

/-- The invariant of the machine: legal parameters, sound rings whose bytes were all written, memories in
canonical form inside their spaces, `initialized` a channel or 0 (R29), no latch set whose enable is 0 (60_exceptions.md R264, R266),
`BUSY` exactly while a routine runs (R38, R46), and every frame's locals in bounds. -/
structure State.Inv (s : State) : Prop where
  legal : s.legal = true
  rxWf : s.rx.wf = true
  txWf : s.tx.wf = true
  rxWritten : s.rx.written = true
  txWritten : s.tx.written = true
  fbWf : Memory.wf s.chip.fb = true ∧ Memory.below Config.fbSize s.chip.fb = true
  hostWf : Memory.wf s.hostMem = true ∧ Memory.below Config.hostSpace s.hostMem = true
  channel : s.initialized.toNat ≤ Config.chMax
  latches : ∀ e, s.pend.get e = true → s.en.get e = true
  busy : s.status.busy = true ↔ s.seq ≠ .idle
  frames : ∀ f ∈ s.seq.frames, f.wf s.maxPayload = true

/-- The label of a command routine (10_state.md R45). -/
def Label.isCommand : Label → Bool
  | .forceIdle _ | .loadAndSend _ | .putOne _ | .pushBlocking _ => false
  | _ => true

/-- A caller stands at the step after its call of FORCE_IDLE. -/
def Label.awaitsForceIdle : Label → Bool
  | .init .S12 | .terminate .S4 => true
  | _ => false

/-- A caller stands at the step after its call of PUT_ONE. -/
def Label.awaitsPutOne : Label → Bool
  | .putByte .S3 | .putBuffer .S5 | .putString .S6 => true
  | _ => false

/-- A command stands at the step after its call of LOAD_AND_SEND. -/
def Label.awaitsLoadAndSend : Label → Bool
  | .putString .S8 | .transmitNow .S3 => true
  | _ => false

/-- The stacks the routines of 40 to 44 build (R45): a command; a subroutine over the command that called
it; LOAD_AND_SEND over PUT_ONE over the command that called that. At most three frames. -/
def stackShape : List Label → Bool
  | [] => true
  | [c] => c.isCommand
  | [.forceIdle _, c] => c.awaitsForceIdle
  | [.putOne _, c] => c.awaitsPutOne
  | [.loadAndSend _, c] => c.awaitsLoadAndSend
  | [.loadAndSend _, .putOne .S3, c] => c.awaitsPutOne
  | _ => false

/-- The stack of a sequencer state has the shape of R45. -/
def Seq.shaped (q : Seq) : Bool := stackShape (q.frames.map Frame.label)

/-- A command past its inactive check runs while the block is active, and INIT past its own check while it
is inactive (10_state.md R29 to R31; 41_radio_fsm.md R150, R152; 44_transport_api.md R231). -/
def Frame.activityOk (initialized : BitVec 5) (f : Frame) : Bool :=
  match f.label with
  | .init .S1 => true
  | .init _ => initialized = 0
  | .available .S2 | .getByte .S2 | .flushRx .S2 | .flushRx .S3 => initialized ≠ 0
  | .getBuffer .S1 | .putByte .S1 | .putBuffer .S1 | .putString .S1 | .transmitNow .S1 => true
  | .getBuffer _ | .putByte _ | .putBuffer _ | .putString _ | .transmitNow _ => initialized ≠ 0
  | _ => true

/-- The discipline of the sequencer: a stack of the shape of R45 whose commands agree with
`initialized`. -/
structure State.Disciplined (s : State) : Prop where
  shaped : s.seq.shaped = true
  activity : ∀ f ∈ s.seq.frames, f.activityOk s.initialized = true

/-- A frame of INIT is on the stack. -/
def State.runsInit (s : State) : Bool :=
  s.seq.frames.any fun f => match f.label with
    | .init _ => true
    | _ => false

/-- The label of the sequencer's next step, if it runs. -/
def State.topLabel (s : State) : Option Label := s.seq.frames.head?.map Frame.label

/-- The label of the step this step takes, if it is a step of `SEQ`: the block's turn, no latch set. -/
def State.seqTurn (s : State) : Option Label :=
  match (nextTurn s).1, pendingVector s.pend with
  | .block, none => s.topLabel
  | _, _ => none

/-- The next turn is no issued code (log 2): the block, the host, the chip or the air steps. -/
def State.noIssueNext (s : State) : Bool :=
  match (nextTurn s).1 with
  | .issue _ _ => false
  | _ => true

/-- The next turn issues no code 30_encoding.md R104 calls unassigned. -/
def State.nextTurnDecodes (s : State) : Bool :=
  match (nextTurn s).1 with
  | .issue f w => (decode f w).toOption.isSome
  | _ => true

/-- `k` steps, stopping at the first fault or refusal. -/
def steps : Nat → State → Answer
  | 0, s => .next s
  | k + 1, s => andThen (step s) (steps k)

/-- The emission record of a frame LOAD_AND_SEND staged from the bytes `p` (43_frame_assembler.md R203,
R206): length `p.length + 2`, and the payload, or ⊥ where the length is above `FRAME_MAX`. -/
def stagedRecord (p : List Byte) : TxRecord :=
  { len := BitVec.ofNat 8 (p.length + 2)
    payload := if p.length + 2 ≤ Config.frameMax then some p else none }

/-- The sequencer after a subroutine over the frames `rest` has returned with no value the caller keeps
(10_state.md R46): the caller goes on, or there is none and the sequencer is idle (log 16). -/
def Seq.resumed : List Frame → Seq
  | [] => .idle
  | f :: fs => .run f fs

/-- Nobody disturbs the sequencer: legal parameters, no other agent's turn to come, no latch set. -/
def State.undisturbed (s : State) : Bool :=
  s.legal && s.agenda.isEmpty && (pendingVector s.pend).isNone

end Sys2Proof.Machine
end

