-- ==== Sys2Proof/Certificates/Slice0/Obligations.lean ====
section
/-! DEFINITION. The statements for the provers. Each docstring names the rules of spec/ the statement
formalises. "Undisturbed" is `State.undisturbed`: legal parameters, no other agent's turn to come and no
event latch set, so that the next steps are the sequencer's. -/

open Sys2Proof Sys2Proof.Machine

/-! ## Encoding (30_encoding.md) -/

/-- R91, R93, R97, R100, R101: the decoder reads back every encoded instruction, whatever its operands. -/
def Obligations.DecodeEncodeRoundTrip : Prop :=
  ∀ i : Instr, i.wellFormed = true → decode i.format (encode i) = .ok i

/-- R97, R100, R101: an internal code has one meaning, and a host command is decoded in its own format
with its own opcode. -/
def Obligations.DecodedCodeReencodes : Prop :=
  ∀ (f : Format) (w : Word) (i : Instr), decode f w = .ok i →
    i.format = f ∧ (f ≠ .hcmd → encode i = w) ∧ (f = .hcmd → opcField (encode i) = opcField w)

/-- R108, R100, R97, R101: words written out from the spec's encodings decode to what they stand for. -/
def Obligations.SpecWordsDecode : Prop :=
  decode .hcmd 0x00000301 = .ok (.init 3) ∧ decode .hcmd 0x00001101 = .ok (.init 17) ∧
  decode .hcmd 0x00004120 = .ok (.putbyte 0x41) ∧ decode .hcmd 0x00060012 = .ok (.getbuffer 6) ∧
  decode .hcmd 0x012C0021 = .ok (.putbuffer 300) ∧ decode .hcmd 0xABCD0011 = .ok .getbyte ∧
  decode .hcmd 0x00000005 = .error (.illegalOpcode 5) ∧
  decode .uop 0x38 = .ok .uopPushTx ∧ decode .trxcmd 0x09 = .ok .trxReady ∧
  decode .sub 0x2 = .ok .seqLoadAndSend ∧ decode .evt 1 = .ok .evtFrameEnd

/-- R103: a field a command does not use is ignored. `ARG8` is used by INIT and PUTBYTE alone, `ARG16` by
GETBUFFER and PUTBUFFER alone. -/
def Obligations.UnusedFieldsAreIgnored : Prop :=
  ∀ (opc a8 a8' : Byte) (a16 a16' : Half),
    (opc ≠ 0x01 → opc ≠ 0x20 →
      decode .hcmd (cmdWord opc a8 a16) = decode .hcmd (cmdWord opc a8' a16)) ∧
    (opc ≠ 0x12 → opc ≠ 0x21 →
      decode .hcmd (cmdWord opc a8 a16) = decode .hcmd (cmdWord opc a8 a16'))

/-- A step runs the decoded instruction: a host write of `CMD` (R92), an issued code, and the vector of
the event taken (60_exceptions.md R265). Only the turn leaves the agenda. The agenda and the issue port
are the model's choice (log 1, log 2). -/
def Obligations.StepRunsDecodedInstruction : Prop :=
  ∀ (s : State) (i : Instr), s.legal = true →
    (∀ w ts, s.agenda = .host (.write 4 0x00 w) :: ts → decode .hcmd w = .ok i →
      step s = exec i { s with agenda := ts }) ∧
    (∀ f w ts, s.agenda = .issue f w :: ts → decode f w = .ok i →
      step s = exec i { s with agenda := ts }) ∧
    (∀ v ts, s.agenda = .block :: ts → pendingVector s.pend = some v → decode .evt v = .ok i →
      step s = exec i { s with agenda := ts }) ∧
    (∀ v, s.agenda = [] → pendingVector s.pend = some v → decode .evt v = .ok i → step s = exec i s)

/-! ## Power-up, parameters, and the host port -/

/-- 10_state.md R52: the power-up value of every piece of block state, for every parameter set, chip and
draw; what R52 calls unknown is an argument, so no value named in a log entry is stated. -/
def Obligations.PowerUpValues : Prop :=
  ∀ (p : Params) (m : ChipModel) (d : PowerUpDraws), p.legal = true →
    ∃ s, State.construct p m d = some s ∧
      s.rx.length = 0 ∧ s.rx.current = 0 ∧ s.tx.length = 0 ∧ s.tx.current = 0 ∧
      s.rx.size.toNat = p.rxSize ∧ s.tx.size.toNat = p.txSize ∧ s.rx.store = [] ∧ s.tx.store = [] ∧
      s.rxOverflow = 0 ∧ s.txIdle = false ∧ s.initialized = 0 ∧ s.qcap = d.qcap ∧
      (∀ e, s.pend.get e = false ∧ s.en.get e = false) ∧ s.seq = .idle ∧ s.addr = 0 ∧
      s.result = 0 ∧ s.status.word = 0 ∧ s.txLog = [] ∧ s.airPhase = .quiet ∧ s.refused = false ∧
      s.chip.trxStatus = d.trxStatus ∧ s.chip.qualityLive = none ∧ s.chip.fb = [] ∧
      s.chip.evtEn = d.evtEn ∧ s.chip.ctrl = d.ctrl ∧ s.chip.channel = d.channel ∧
      s.chip.txPwr = d.txPwr ∧ s.chip.pin = d.pin

/-- 00_scope.md R6, 60_exceptions.md R263 (b): a set outside the four ranges has no state, and a state
that carries one is refused; the second clause is the model's choice (log 4, log 19). -/
def Obligations.IllegalParametersAreRefused : Prop :=
  (∀ (p : Params) (m : ChipModel) (d : PowerUpDraws),
    ¬(1 ≤ p.rxSize ∧ p.rxSize ≤ 65535 ∧ 1 ≤ p.txSize ∧ p.txSize ≤ 65535 ∧
      2 ≤ p.maxPayload ∧ p.maxPayload ≤ 127 ∧ 1 ≤ p.autoflush ∧ p.autoflush ≤ 65535) →
    State.construct p m d = none) ∧
  (∀ s : State,
    (s.rx.size = 0 ∨ s.tx.size = 0 ∨ s.maxPayload < 2 ∨ 127 < s.maxPayload ∨ s.autoflush < 1 ∨
      65535 < s.autoflush) → step s = .refused .illegalParameters)

/-- 10_state.md R34 to R39, 30_encoding.md R90: what a 32-bit read at a multiple of 4 returns, the bits of
`STATUS` among them, and that a write of any register but `CMD` and `ADDR` has no effect. `busData` is
where the model shows what was read (log 14), a draw is a free value (log 9), and that `QUALITY` reads as
one while the chip does not report `LISTENING` is the model's reading of R37 against DEC9 (log 10). -/
def Obligations.HostRegisterMap : Prop :=
  ∀ s : State,
    hostStep (.read 4 0x00) s = .next { s with busData := 0 } ∧
    hostStep (.read 4 0x04) s = .next { s with busData := s.addr } ∧
    hostStep (.read 4 0x08) s = .next { s with busData := s.result } ∧
    (∃ w : Word, hostStep (.read 4 0x0C) s = .next { s with busData := w } ∧
      w.getLsbD 0 = s.status.busy ∧ w.getLsbD 1 = s.status.ill ∧ w.getLsbD 2 = s.status.ovr ∧
      w.getLsbD 3 = s.status.haddr ∧ w.getLsbD 4 = s.status.strlen ∧
      w.getLsbD 5 = s.status.rxlen ∧ w.getLsbD 6 = s.status.initact ∧
      ∀ n, 7 ≤ n → w.getLsbD n = false) ∧
    (∀ q, chipState s = 0x06 → s.chip.qualityLive = some q →
      hostStep (.read 4 0x10) s = .next { s with busData := BitVec.zeroExtend 32 q }) ∧
    ((chipState s ≠ 0x06 ∨ s.chip.qualityLive = none) →
      hostStep (.read 4 0x10) s =
        .next { s with
          busData := BitVec.zeroExtend 32 (Config.drawByte s.draws), draws := s.draws + 1 }) ∧
    (∀ v, hostStep (.write 4 0x04 v) s = .next { s with addr := v }) ∧
    (∀ v off, off = 0x08 ∨ off = 0x0C ∨ off = 0x10 → hostStep (.write 4 off v) s = .next s) ∧
    (∀ v off, off % 4 = 0 → 0x10 < off →
      hostStep (.read 4 off) s = .next { s with busData := 0 } ∧
      hostStep (.write 4 off v) s = .next s)

/-- 20_memory.md R60 (b), R75: a host write of one byte of host memory is read back there, every other byte
reads as before, and nothing else changes. -/
def Obligations.HostWritesItsMemory : Prop :=
  ∀ (s : State) (a : Word) (v : Byte),
    ∃ t, hostStep (.memWrite a v) s = .next t ∧ t = { s with hostMem := t.hostMem } ∧
      hostByteAt t a.toNat = v ∧ ∀ b, b ≠ a.toNat → hostByteAt t b = hostByteAt s b

/-- 20_memory.md R73: an access that is not 32 bits at a multiple of 4 sets `refused` and performs
nothing. -/
def Obligations.MisalignedHostAccessIsRefused : Prop :=
  ∀ (s : State) (bytes off : Nat) (v : Word), bytes ≠ 4 ∨ off % 4 ≠ 0 →
    hostStep (.read bytes off) s = .next { s with refused := true } ∧
    hostStep (.write bytes off v) s = .next { s with refused := true }

/-- 30_encoding.md R94: an opcode not in R93, written while idle, sets `ILL` and does nothing else; no
step clears the bit. -/
def Obligations.IllegalOpcodeSetsIll : Prop :=
  (∀ (s : State) (w : Word), s.status.busy = false →
    ((opcField w).toNat = 0x00 ∨ (0x04 ≤ (opcField w).toNat ∧ (opcField w).toNat ≤ 0x0F) ∨
      (0x15 ≤ (opcField w).toNat ∧ (opcField w).toNat ≤ 0x1F) ∨ 0x24 ≤ (opcField w).toNat) →
    hostStep (.write 4 0x00 w) s = .next { s with status.ill := true }) ∧
  (∀ s t : State, step s = .next t → s.status.ill = true → t.status.ill = true)

/-- 30_encoding.md R95: a `CMD` write while `BUSY` sets `OVR` and is discarded; no step clears the bit. -/
def Obligations.BusyCommandWriteIsLost : Prop :=
  (∀ (s : State) (w : Word), s.status.busy = true →
    hostStep (.write 4 0x00 w) s = .next { s with status.ovr := true }) ∧
  (∀ (s : State) (i : Instr), s.status.busy = true → i.format = .hcmd →
    exec i s = .next { s with status.ovr := true }) ∧
  (∀ s t : State, step s = .next t → s.status.ovr = true → t.status.ovr = true)

/-- 30_encoding.md R92: a command accepted while idle sets `BUSY` and starts its routine at `S1`, with
its fields and `ADDR` latched; nothing else changes. -/
def Obligations.AcceptedCommandStartsItsRoutine : Prop :=
  ∀ s : State, s.status.busy = false →
    let started (l : Label) (x : Locals) : Answer :=
      .next { s with
        status.busy := true, seq := .run { label := l, loc := { x with a32 := s.addr } } [] }
    (∀ ch, exec (.init ch) s = started (.init .S1) { a8 := ch }) ∧
    exec .terminate s = started (.terminate .S1) {} ∧
    exec .isactive s = started (.isActive .S1) {} ∧
    exec .available s = started (.available .S1) {} ∧
    exec .getbyte s = started (.getByte .S1) {} ∧
    (∀ n, exec (.getbuffer n) s = started (.getBuffer .S1) { a16 := n }) ∧
    exec .flushrx s = started (.flushRx .S1) {} ∧
    exec .ovfcount s = started (.ovfCount .S1) {} ∧
    (∀ b, exec (.putbyte b) s = started (.putByte .S1) { a8 := b }) ∧
    (∀ n, exec (.putbuffer n) s = started (.putBuffer .S1) { a16 := n }) ∧
    exec .putstring s = started (.putString .S1) {} ∧
    exec .transmitnow s = started (.transmitNow .S1) {}

/-! ## Host commands, run to their end -/

/-- 41_radio_fsm.md R155, 44_transport_api.md R220, R225: ISACTIVE returns `initialized`; AVAILABLE returns
`RX.length` while active and -1 while inactive; OVFCOUNT returns `rxOverflow`, active or not, and does not
clear it. None changes anything else. -/
def Obligations.ReportingCommandsReturnTheirRegister : Prop :=
  ∀ s : State, s.undisturbed = true → s.status.busy = false →
    andThen (exec .isactive s) (steps 1) =
      .next { s with result := BitVec.zeroExtend 32 s.initialized, seq := .idle } ∧
    (s.initialized = 0 →
      andThen (exec .available s) (steps 1) = .next { s with result := 0xFFFFFFFF, seq := .idle }) ∧
    (s.initialized ≠ 0 →
      andThen (exec .available s) (steps 2) =
        .next { s with result := BitVec.zeroExtend 32 s.rx.length, seq := .idle }) ∧
    andThen (exec .ovfcount s) (steps 1) =
      .next { s with result := BitVec.zeroExtend 32 s.rxOverflow, seq := .idle }

/-- 44_transport_api.md R221: GETBYTE pops the oldest received byte and returns it, 0 to 255; it returns -1
while inactive and when `RX` is empty. -/
def Obligations.GetbytePopsTheOldestByte : Prop :=
  ∀ s : State, s.undisturbed = true → s.status.busy = false →
    (s.initialized = 0 →
      andThen (exec .getbyte s) (steps 1) = .next { s with result := 0xFFFFFFFF, seq := .idle }) ∧
    (s.initialized ≠ 0 → s.rx.length = 0 →
      andThen (exec .getbyte s) (steps 2) = .next { s with result := 0xFFFFFFFF, seq := .idle }) ∧
    (∀ b, s.initialized ≠ 0 → s.rx.length ≠ 0 →
      Memory.read s.rx.store s.rx.current.toNat = some b →
      andThen (exec .getbyte s) (steps 2) =
        .next { s with
          result := BitVec.zeroExtend 32 b, seq := .idle
          rx := { s.rx with
            current := BitVec.ofNat 16 ((s.rx.current.toNat + 1) % s.rx.size.toNat)
            length := s.rx.length - 1 } })

/-- 44_transport_api.md R224: FLUSHRX discards the received bytes, leaving `current` and the storage, and
clears `rxOverflow`; while inactive it does nothing and returns 0. -/
def Obligations.FlushrxDiscardsTheReceivedBytes : Prop :=
  ∀ s : State, s.undisturbed = true → s.status.busy = false →
    (s.initialized = 0 →
      andThen (exec .flushrx s) (steps 1) = .next { s with result := 0, seq := .idle }) ∧
    (s.initialized ≠ 0 →
      andThen (exec .flushrx s) (steps 3) =
        .next { s with rx.length := 0, rxOverflow := 0, result := 0, seq := .idle })

/-- 44_transport_api.md R222, R223 (§8 property 6): GETBUFFER zero-fills `dest[0..maxLen)`, pops
`n = min(RX.length, maxLen)` bytes into its front, oldest first, and returns `n`; no other byte of host
memory and nothing else changes. -/
def Obligations.GetbufferCopiesTheReceivedBytes : Prop :=
  ∀ (s : State) (maxLen : Half), s.undisturbed = true → s.status.busy = false → s.initialized ≠ 0 →
    s.rx.wf = true → s.rx.written = true → s.addr.toNat + maxLen.toNat ≤ 4294967296 →
    ∃ k t, andThen (exec (.getbuffer maxLen) s) (steps k) = .next t ∧
      t = { s with
        rx := { s.rx with
          current := BitVec.ofNat 16
            ((s.rx.current.toNat + min s.rx.length.toNat maxLen.toNat) % s.rx.size.toNat)
          length := BitVec.ofNat 16 (s.rx.length.toNat - min s.rx.length.toNat maxLen.toNat) }
        hostMem := t.hostMem, seq := .idle
        result := BitVec.ofNat 32 (min s.rx.length.toNat maxLen.toNat) } ∧
      (∀ j, j < min s.rx.length.toNat maxLen.toNat →
        Memory.read t.hostMem (s.addr.toNat + j) = Memory.read s.rx.store (s.rx.slot j)) ∧
      (∀ j, min s.rx.length.toNat maxLen.toNat ≤ j → j < maxLen.toNat →
        Memory.read t.hostMem (s.addr.toNat + j) = some 0) ∧
      (∀ a, a < s.addr.toNat ∨ s.addr.toNat + maxLen.toNat ≤ a →
        Memory.read t.hostMem a = Memory.read s.hostMem a)

/-- 41_radio_fsm.md R152: INIT while active sets `INITACT` and changes nothing else. 20_memory.md R74:
GETBUFFER and PUTBUFFER on a range of `n > 0` bytes that would pass address 2^32 - 1 raise `HADDR` and
touch nothing. `RESULT` is unchanged (60_exceptions.md R262). -/
def Obligations.CommandsRaiseTheirFaults : Prop :=
  ∀ s : State, s.undisturbed = true → s.status.busy = false → s.initialized ≠ 0 →
    (∀ a8 : Byte, andThen (exec (.init a8) s) (steps 1) =
      .next { s with status.initact := true, seq := .idle }) ∧
    (∀ n : Half, 0 < n.toNat → s.addr.toNat + n.toNat - 1 > 4294967295 →
      andThen (exec (.getbuffer n) s) (steps 2) =
        .next { s with status.haddr := true, seq := .idle } ∧
      andThen (exec (.putbuffer n) s) (steps 2) =
        .next { s with status.haddr := true, seq := .idle })

/-- 44_transport_api.md R227: while no auto-flush falls due, PUTBYTE appends its byte to `TX` and returns
it, and returns -1 with the byte lost where `TX` is full. -/
def Obligations.PutbyteQueuesItsByte : Prop :=
  ∀ (s : State) (b : Byte), s.undisturbed = true → s.status.busy = false → s.initialized ≠ 0 →
    (s.tx.length.toNat < s.tx.size.toNat → s.tx.length.toNat + 1 < s.autoflush →
      andThen (exec (.putbyte b) s) (steps 4) =
        .next { s with
          result := BitVec.zeroExtend 32 b, seq := .idle
          tx := { s.tx with
            store := Memory.write s.tx.store
              ((s.tx.current.toNat + s.tx.length.toNat) % s.tx.size.toNat) b
            length := s.tx.length + 1 } }) ∧
    (s.tx.size.toNat ≤ s.tx.length.toNat → s.tx.length.toNat < s.autoflush →
      andThen (exec (.putbyte b) s) (steps 4) =
        .next { s with result := 0xFFFFFFFF, seq := .idle })

/-- 43_frame_assembler.md R200 to R204, R206: where the lock wait ends, LOAD_AND_SEND drains
`m = min(TX.length, MAX_PAYLOAD - 1)` bytes and stages them with length `m + 2` and a zero terminator;
nothing else of the block changes, and the caller goes on after its call. The reference chip
(41_radio_fsm.md R165, R167, R169, R173) emits exactly that one frame, `⊥` where `m + 2` is above 127, and
is left LISTENING; a chip that takes no step and reports `READY_TO_SEND` emits nothing and holds two
grants more (R204). Without a caller the sequencer is idle after it (log 16). -/
def Obligations.LoadAndSendEmitsTheStagedFrame : Prop :=
  ∀ (s : State) (rest : List Frame) (bs : List Byte), s.undisturbed = true →
    s.seq = .run loadAndSendFrame rest → s.tx.wf = true →
    s.tx.contents.take (s.maxPayload - 1) = bs.map some →
    ((s.chipModel = .ref ∧ (chipState s = 0x06 ∨ chipState s = 0x08 ∨ chipState s = 0x09)) ∨
      (s.chipModel = .anyChip ∧ chipState s = 0x09)) →
    ∃ k t, steps k s = .next t ∧
      t = { s with
        seq := Seq.resumed rest, status.busy := s.status.busy && !rest.isEmpty
        opRes := if rest.isEmpty then .num 0 else s.opRes
        tx := t.tx, chip := t.chip, txLog := t.txLog } ∧
      t.tx.contents = s.tx.contents.drop bs.length ∧ t.tx.size = s.tx.size ∧
      Memory.read t.chip.fb 0 = some (BitVec.ofNat 8 (bs.length + 2)) ∧
      (∀ j, (h : j < bs.length) → Memory.read t.chip.fb (1 + j) = some bs[j]) ∧
      Memory.read t.chip.fb (1 + bs.length) = some 0 ∧
      (∀ i, bs.length + 1 < i → Memory.read t.chip.fb i = Memory.read s.chip.fb i) ∧
      (s.chipModel = .ref →
        t.txLog = s.txLog ++ [stagedRecord bs] ∧ chipState t = 0x06 ∧ t.chip.armed = false) ∧
      (s.chipModel = .anyChip →
        t.txLog = s.txLog ∧ t.chip.grants = s.chip.grants + 2 ∧
          t.chip.trxStatus = s.chip.trxStatus)

/-- 44_transport_api.md R230 with 43_frame_assembler.md R200, R207 (a): TRANSMITNOW sends one frame with
the oldest bytes of `TX`, an empty one where `TX` is empty, and returns 0; while inactive it does nothing. -/
def Obligations.TransmitnowSendsOneFrame : Prop :=
  ∀ s : State, s.undisturbed = true → s.status.busy = false →
    (s.initialized = 0 →
      andThen (exec .transmitnow s) (steps 1) = .next { s with result := 0, seq := .idle }) ∧
    (∀ bs : List Byte, s.initialized ≠ 0 → s.chipModel = .ref → chipState s = 0x06 →
      s.tx.wf = true → s.tx.contents.take (s.maxPayload - 1) = bs.map some → bs.length + 2 ≤ 127 →
      ∃ k t, andThen (exec .transmitnow s) (steps k) = .next t ∧
        t = { s with
          seq := .idle, result := 0, tx := t.tx, chip := t.chip
          txLog := s.txLog ++ [{ len := BitVec.ofNat 8 (bs.length + 2), payload := some bs }] } ∧
        t.tx.contents = s.tx.contents.drop bs.length ∧ chipState t = 0x06)

/-- 44_transport_api.md R226, R227 (§8 property 7): on the reference chip, a byte that brings `TX` to the
threshold makes the auto-flush send the first `MAX_PAYLOAD - 1` bytes of `TX` with that byte appended,
before PUTBYTE returns it. Where `TX` with the byte fits one frame, the byte is the last of that frame and
`TX` is empty after it. -/
def Obligations.PutbyteAtTheThresholdSendsAFrame : Prop :=
  ∀ (s : State) (b : Byte) (bs : List Byte), s.undisturbed = true → s.status.busy = false →
    s.initialized ≠ 0 → s.chipModel = .ref → chipState s = 0x06 → s.tx.wf = true →
    s.tx.length.toNat < s.tx.size.toNat → s.autoflush ≤ s.tx.length.toNat + 1 →
    (s.tx.contents ++ [some b]).take (s.maxPayload - 1) = bs.map some →
    ∃ k t, andThen (exec (.putbyte b) s) (steps k) = .next t ∧
      t = { s with
        seq := .idle, result := BitVec.zeroExtend 32 b, tx := t.tx, chip := t.chip
        txLog := s.txLog ++ [stagedRecord bs] } ∧
      t.tx.contents = (s.tx.contents ++ [some b]).drop bs.length ∧ chipState t = 0x06 ∧
      (s.tx.length.toNat + 1 ≤ s.maxPayload - 1 →
        bs.map some = s.tx.contents ++ [some b] ∧ bs.getLast? = some b ∧ t.tx.contents = [])

/-- 44_transport_api.md R228: while no auto-flush falls due, PUTBUFFER appends the bytes of
`data[0..len)` in order, drops silently those that do not fit, and returns `len`; host memory is
unchanged. -/
def Obligations.PutbufferQueuesTheBytes : Prop :=
  ∀ (s : State) (len : Half), s.undisturbed = true → s.status.busy = false → s.initialized ≠ 0 →
    s.tx.wf = true → s.addr.toNat + len.toNat ≤ 4294967296 →
    min (s.tx.length.toNat + len.toNat) s.tx.size.toNat < s.autoflush →
    ∃ k t, andThen (exec (.putbuffer len) s) (steps k) = .next t ∧
      t = { s with tx := t.tx, seq := .idle, result := BitVec.zeroExtend 32 len } ∧
      t.tx.contents =
        (s.tx.contents ++
          (List.range len.toNat).map fun j => some (hostByteAt s (s.addr.toNat + j))).take
            s.tx.size.toNat ∧
      t.tx.size = s.tx.size ∧ t.tx.wf = true

/-- 44_transport_api.md R228, R226 with 43_frame_assembler.md R200, R206: on the reference chip, where
auto-flush keeps `TX` from filling, PUTBUFFER loses no byte and reorders none: the payloads of the frames
it sends, then what `TX` holds, are what `TX` held before, then `data[0..len)`. A frame of 126 bytes,
which `MAX_PAYLOAD` = 127 allows, leaves the record `⊥`. -/
def Obligations.PutbufferLosesNoByte : Prop :=
  ∀ (s : State) (len : Half), s.undisturbed = true → s.status.busy = false → s.initialized ≠ 0 →
    s.chipModel = .ref → chipState s = 0x06 → s.tx.wf = true → s.tx.written = true →
    s.addr.toNat + len.toNat ≤ 4294967296 → s.autoflush ≤ s.tx.size.toNat →
    s.tx.length.toNat < s.autoflush →
    ∃ (k : Nat) (t : State) (frames : List (List Byte)),
      andThen (exec (.putbuffer len) s) (steps k) = .next t ∧
      t = { s with
        seq := .idle, result := BitVec.zeroExtend 32 len, tx := t.tx, chip := t.chip
        txLog := s.txLog ++ frames.map stagedRecord } ∧
      frames.flatten.map some ++ t.tx.contents =
        s.tx.contents ++
          (List.range len.toNat).map (fun j => some (hostByteAt s (s.addr.toNat + j))) ∧
      (∀ p ∈ frames, 1 ≤ p.length ∧ p.length ≤ s.maxPayload - 1) ∧
      t.tx.length.toNat < s.autoflush ∧ chipState t = 0x06

/-- 44_transport_api.md R229 on the reference chip: PUTSTRING appends the `n` bytes before the first zero,
without the zero, then sends one frame whatever `TX` holds, and returns `n`. While no auto-flush falls due
that frame is the only one, and bytes that do not fit `TX` are dropped. Where auto-flush keeps `TX` from
filling, a string longer than the threshold is split across frames, and no byte is lost or reordered: the
payloads of the auto-flushed frames, then that of the last frame, then what `TX` holds, are what `TX` held
before, then the string. -/
def Obligations.PutstringQueuesAndSends : Prop :=
  ∀ (s : State) (n : Nat), s.undisturbed = true → s.status.busy = false →
    s.initialized ≠ 0 → s.chipModel = .ref → chipState s = 0x06 → s.tx.wf = true →
    n ≤ 65535 → s.addr.toNat + n ≤ 4294967295 → hostByteAt s (s.addr.toNat + n) = 0 →
    (∀ j, j < n → hostByteAt s (s.addr.toNat + j) ≠ 0) →
    let queued := s.tx.contents ++
      (List.range n).map fun j => some (hostByteAt s (s.addr.toNat + j))
    (∀ bs : List Byte, min (s.tx.length.toNat + n) s.tx.size.toNat < s.autoflush →
      (queued.take s.tx.size.toNat).take (s.maxPayload - 1) = bs.map some →
      ∃ k t, andThen (exec .putstring s) (steps k) = .next t ∧
        t = { s with
          seq := .idle, result := BitVec.ofNat 32 n, tx := t.tx, chip := t.chip
          txLog := s.txLog ++ [stagedRecord bs] } ∧
        t.tx.contents = (queued.take s.tx.size.toNat).drop bs.length ∧ chipState t = 0x06) ∧
    (s.tx.written = true → s.autoflush ≤ s.tx.size.toNat → s.tx.length.toNat < s.autoflush →
      ∃ (k : Nat) (t : State) (flushed : List (List Byte)) (last : List Byte),
        andThen (exec .putstring s) (steps k) = .next t ∧
        t = { s with
          seq := .idle, result := BitVec.ofNat 32 n, tx := t.tx, chip := t.chip
          txLog := s.txLog ++ (flushed ++ [last]).map stagedRecord } ∧
        (flushed.flatten ++ last).map some ++ t.tx.contents = queued ∧
        (∀ p ∈ flushed, 1 ≤ p.length ∧ p.length ≤ s.maxPayload - 1) ∧
        last.length ≤ s.maxPayload - 1 ∧ (t.tx.contents ≠ [] → last.length = s.maxPayload - 1) ∧
        chipState t = 0x06)

/-- 44_transport_api.md R229: PUTSTRING raises `STRLEN` where the first 65536 bytes hold no zero, and
`HADDR` where the scan reaches address 2^32 - 1 before that with no zero; it has pushed nothing. -/
def Obligations.PutstringScanFaults : Prop :=
  ∀ s : State, s.undisturbed = true → s.status.busy = false → s.initialized ≠ 0 →
    ((∀ j, j ≤ 65535 → hostByteAt s (s.addr.toNat + j) ≠ 0) → s.addr.toNat + 65535 ≤ 4294967295 →
      ∃ k, andThen (exec .putstring s) (steps k) =
        .next { s with status.strlen := true, seq := .idle }) ∧
    ((∀ a, s.addr.toNat ≤ a → a ≤ 4294967295 → hostByteAt s a ≠ 0) →
      4294967295 < s.addr.toNat + 65535 →
      ∃ k, andThen (exec .putstring s) (steps k) =
        .next { s with status.haddr := true, seq := .idle })

/-- 41_radio_fsm.md R150, R151 on the reference chip (R164 to R172): INIT from any chip state but `BUSY`
resets both rings, programs the chip, sets `initialized` to the clamped channel, and leaves the chip
LISTENING. That the reference chip can stand in `BUSY`, where INIT waits for ever, is the model's choice
(log 23). -/
def Obligations.InitActivatesOnTheReferenceChip : Prop :=
  ∀ (s : State) (a8 : Byte), s.undisturbed = true → s.status.busy = false → s.initialized = 0 →
    s.chipModel = .ref → chipState s ≠ 0x1F →
    ∃ k t, andThen (exec (.init a8) s) (steps k) = .next t ∧
      t = { s with
        initialized := t.initialized, rxOverflow := 0, txIdle := true, result := 0, seq := .idle
        rx := { s.rx with length := 0, current := 0 }, tx := { s.tx with length := 0, current := 0 }
        en := { frameStart := true, frameEnd := true, txComplete := true }
        pend := { frameStart := false, frameEnd := false, txComplete := false }, chip := t.chip } ∧
      t.initialized.toNat = (if 1 ≤ a8.toNat ∧ a8.toNat ≤ 16 then a8.toNat else 1) ∧
      t.chip.channel.toNat = t.initialized.toNat + 10 ∧ t.chip.ctrl = 0x20 ∧ t.chip.evtEn = 0x4C ∧
      t.chip.txPwr = 0x00 ∧ t.chip.trxCmd = 0x06 ∧ chipState t = 0x06 ∧ t.chip.fb = s.chip.fb

/-- 41_radio_fsm.md R153 (§8 property 10): on a chip that takes no step and reports neither `IDLE` nor
`BUSY`, INIT returns 0 with the block inactive, the enables 0, `rxOverflow` and `txIdle` unchanged and
both rings reset; `CTRL`, `CHANNEL` and `TX_PWR` are not written. -/
def Obligations.InitAbortsWhereIdleIsNeverReported : Prop :=
  ∀ (s : State) (a8 : Byte), s.undisturbed = true → s.status.busy = false → s.initialized = 0 →
    s.chipModel = .anyChip → chipState s ≠ 0x08 → chipState s ≠ 0x1F →
    ∃ k t, andThen (exec (.init a8) s) (steps k) = .next t ∧
      t = { s with
        result := 0, seq := .idle
        rx := { s.rx with length := 0, current := 0 }, tx := { s.tx with length := 0, current := 0 }
        en := { frameStart := false, frameEnd := false, txComplete := false }
        pend := { frameStart := false, frameEnd := false, txComplete := false }
        chip := { s.chip with trxCmd := 0x10, evtEn := 0x00, pin := 0x00 } }

/-- 41_radio_fsm.md R154: TERMINATE clears `initialized`, `rxOverflow`, `txIdle` and the event state, keeps
the rings, and returns 0, whatever the chip reports and so whatever FORCE_IDLE answers; on the reference
chip it ends `ASLEEP` (R170). While inactive it does nothing. No other agent steps during the run. -/
def Obligations.TerminateDeactivates : Prop :=
  ∀ s : State, s.undisturbed = true → s.status.busy = false →
    (s.initialized = 0 →
      andThen (exec .terminate s) (steps 1) = .next { s with result := 0, seq := .idle }) ∧
    (s.initialized ≠ 0 →
      ∃ k t, andThen (exec .terminate s) (steps k) = .next t ∧
        t = { s with
          initialized := 0, rxOverflow := 0, txIdle := false, result := 0, seq := .idle
          en := { frameStart := false, frameEnd := false, txComplete := false }
          pend := { frameStart := false, frameEnd := false, txComplete := false }
          chip := t.chip } ∧
        t.chip.evtEn = 0x00 ∧ t.chip.trxCmd = 0x0F ∧ (s.chipModel = .ref → chipState t = 0x0F))

/-- 44_transport_api.md R231: what each data command answers while `initialized == 0`, with no effect but
its result. -/
def Obligations.InactiveCommandsHaveNoEffect : Prop :=
  ∀ (s : State) (b : Byte) (n : Half), s.undisturbed = true → s.status.busy = false →
    s.initialized = 0 →
    let answers (i : Instr) (v : Word) : Prop :=
      andThen (exec i s) (steps 1) = .next { s with result := v, seq := .idle }
    answers .terminate 0 ∧ answers .isactive 0 ∧ answers .available 0xFFFFFFFF ∧
    answers .getbyte 0xFFFFFFFF ∧ answers (.getbuffer n) 0xFFFFFFFF ∧ answers .flushrx 0 ∧
    answers .ovfcount (BitVec.zeroExtend 32 s.rxOverflow) ∧ answers (.putbyte b) 0xFFFFFFFF ∧
    answers (.putbuffer n) 0xFFFFFFFF ∧ answers .putstring 0xFFFFFFFF ∧ answers .transmitnow 0

/-! ## Internal subroutines -/

/-- 30_encoding.md R100, R101; 10_state.md R46: the subroutine ids and PUSHB put a frame at `S1` on top of
the running stack, with the operand byte; the caller's frames stay. With no caller the subroutine is the
one routine of the sequencer, which is then busy: that clause is the model's choice
(log 16), and so is the operand latch `opArg` (log 15). -/
def Obligations.SubroutineCallsPushAFrame : Prop :=
  ∀ s : State,
    let called (l : Label) (x : Locals) : Answer :=
      match s.seq with
      | .run f fs => .next { s with seq := .run { label := l, loc := x } (f :: fs) }
      | .idle => .next { s with status.busy := true, seq := .run { label := l, loc := x } [] }
    exec .seqForceIdle s = called (.forceIdle .S1) {} ∧
    exec .seqLoadAndSend s = called (.loadAndSend .S1) {} ∧
    exec .seqPutOne s = called (.putOne .S1) { b := s.opArg } ∧
    exec .uopPushbRx s = called (.pushBlocking .S1) { b := s.opArg, sel := .rx } ∧
    exec .uopPushbTx s = called (.pushBlocking .S1) { b := s.opArg, sel := .tx }

/-- 41_radio_fsm.md R160: FORCE_IDLE returns 1 at its first verification that reads `IDLE`, and 0 after its
three commands. On a chip that takes no step the first or none does. On a chip that comes to report `IDLE`
in a step of its own after the first, second or third command, the verification after that command does.
The reference chip (R166, R168, R171) lands `IDLE` at the first command, from `ASLEEP` at the third; that
it keeps bits 7:5 of `TRX_STATUS` is the model's inference (log 20). -/
def Obligations.ForceIdleEscalates : Prop :=
  ∀ (s : State) (f : Frame) (fs : List Frame), s.undisturbed = true →
    s.seq = .run forceIdleFrame (f :: fs) →
    (s.chipModel = .anyChip →
      (chipState s = 0x08 →
        steps 3 s =
          .next { s with chip.trxCmd := 0x08, seq := .run { f with loc.ok := true } fs }) ∧
      (chipState s ≠ 0x08 →
        steps 10 s =
          .next { s with chip.trxCmd := 0x10, seq := .run { f with loc.ok := false } fs }) ∧
      (∀ v : Byte, chipState s ≠ 0x08 → v.extractLsb' 0 5 = 0x08 →
        let verified (cmd : Byte) : Answer :=
          .next { s with
            chip.trxCmd := cmd, chip.trxStatus := v, seq := .run { f with loc.ok := true } fs }
        let after (n : Nat) : State :=
          { s with agenda := List.replicate n .block ++ [.chip (.setStatus v)] }
        steps 4 (after 1) = verified 0x08 ∧ steps 7 (after 4) = verified 0x03 ∧
        steps 10 (after 7) = verified 0x10)) ∧
    (s.chipModel = .ref →
      (chipState s ≠ 0x0F →
        steps 3 s =
          .next { s with
            chip.trxCmd := 0x08, chip.armed := false
            chip.trxStatus := s.chip.trxStatus.extractLsb' 5 3 ++ 0x08#5
            seq := .run { f with loc.ok := true } fs }) ∧
      (chipState s = 0x0F →
        steps 9 s =
          .next { s with
            chip.trxCmd := 0x10
            chip.trxStatus := s.chip.trxStatus.extractLsb' 5 3 ++ 0x08#5
            seq := .run { f with loc.ok := true } fs }))

/-- 40_ring_buffer.md R124 (§4.1): PUSH_BLOCKING on a ring that stays full makes 50 attempts and answers
`FULL`, the ring unchanged; with room it appends at its first attempt. No routine calls PUSH_BLOCKING: that
its answer goes to the local `r` of the frame below is the model's choice (log 22). -/
def Obligations.PushBlockingRetriesFiftyTimes : Prop :=
  ∀ (s : State) (f : Frame) (fs : List Frame) (sel : RingSel) (b : Byte), s.undisturbed = true →
    s.seq = .run (pushBlockingFrame sel b) (f :: fs) →
    ((s.ring sel).length = (s.ring sel).size →
      steps 151 s = .next { s with seq := .run { f with loc.r := .full } fs } ∧
      ∀ k, k ≤ 150 → ∃ x l, steps k s =
        .next { s with seq := .run { label := .pushBlocking l, loc := x } (f :: fs) }) ∧
    ((s.ring sel).length.toNat < (s.ring sel).size.toNat →
      steps 2 s =
        .next { (s.setRing sel ((s.ring sel).pushed b)) with
          seq := .run { f with loc.r := .ok b } fs })

/-- 20_memory.md R69, 60_exceptions.md R278, 70_reset_and_hazards.md R322: while its condition is false an
`Await` step is not taken, and the undisturbed sequencer stays as it is. -/
def Obligations.AwaitHoldsTheSequencer : Prop :=
  ∀ (s : State) (x : Locals) (rest : List Frame), s.undisturbed = true →
    (s.seq = .run { label := .init .S5, loc := x } rest → chipState s = 0x1F → step s = .next s) ∧
    (s.seq = .run { label := .loadAndSend .S2, loc := x } rest → chipState s ≠ 0x09 →
      step s = .next s)

/-! ## Ring primitives (40_ring_buffer.md) -/

/-- R120 and R127: RESET clears `length` and `current`, FLUSH `length` alone; the storage and the other
ring stay. `opRes` is the model's result latch (log 15). -/
def Obligations.ResetAndFlushPrimitives : Prop :=
  ∀ s : State,
    exec .uopResetRx s = .next { s with rx.length := 0, rx.current := 0, opRes := .none } ∧
    exec .uopResetTx s = .next { s with tx.length := 0, tx.current := 0, opRes := .none } ∧
    exec .uopFlushRx s = .next { s with rx.length := 0, opRes := .none } ∧
    exec .uopFlushTx s = .next { s with tx.length := 0, opRes := .none }

/-- R121, R125, R126: PEEK answers `EMPTY`, or `OK` of the oldest byte (a byte never written is the next
draw, 10_state.md R25); CAPREM answers `size - length` and ISEMPTY whether `length` is 0. The rings are
unchanged. `opRes` is the model's result latch (log 15). -/
def Obligations.ReadingPrimitives : Prop :=
  ∀ s : State,
    (s.rx.length = 0 → exec .uopPeekRx s = .next { s with opRes := .empty }) ∧
    (∀ b, s.rx.length ≠ 0 → Memory.read s.rx.store s.rx.current.toNat = some b →
      exec .uopPeekRx s = .next { s with opRes := .ok b }) ∧
    (s.rx.length ≠ 0 → Memory.read s.rx.store s.rx.current.toNat = none →
      exec .uopPeekRx s =
        .next { s with opRes := .ok (Config.drawByte s.draws), draws := s.draws + 1 }) ∧
    (s.tx.length = 0 → exec .uopPeekTx s = .next { s with opRes := .empty }) ∧
    (∀ b, s.tx.length ≠ 0 → Memory.read s.tx.store s.tx.current.toNat = some b →
      exec .uopPeekTx s = .next { s with opRes := .ok b }) ∧
    (s.tx.length ≠ 0 → Memory.read s.tx.store s.tx.current.toNat = none →
      exec .uopPeekTx s =
        .next { s with opRes := .ok (Config.drawByte s.draws), draws := s.draws + 1 }) ∧
    exec .uopCapremRx s = .next { s with opRes := .num (s.rx.size.toNat - s.rx.length.toNat) } ∧
    exec .uopCapremTx s = .next { s with opRes := .num (s.tx.size.toNat - s.tx.length.toNat) } ∧
    exec .uopIsemptyRx s = .next { s with opRes := .num (if s.rx.length = 0 then 1 else 0) } ∧
    exec .uopIsemptyTx s = .next { s with opRes := .num (if s.tx.length = 0 then 1 else 0) }

/-- R122: POP answers `EMPTY`, or removes the oldest byte and answers it; the index wraps modulo `size`. A
byte never written is the next draw (10_state.md R25). `opRes` is the model's result latch (log 15). -/
def Obligations.PopPrimitive : Prop :=
  ∀ s : State,
    (s.rx.length = 0 → exec .uopPopRx s = .next { s with opRes := .empty }) ∧
    (∀ b, s.rx.length ≠ 0 → Memory.read s.rx.store s.rx.current.toNat = some b →
      exec .uopPopRx s = .next { s with
        opRes := .ok b, rx.length := s.rx.length - 1
        rx.current := BitVec.ofNat 16 ((s.rx.current.toNat + 1) % s.rx.size.toNat) }) ∧
    (s.rx.length ≠ 0 → Memory.read s.rx.store s.rx.current.toNat = none →
      exec .uopPopRx s = .next { s with
        opRes := .ok (Config.drawByte s.draws), draws := s.draws + 1, rx.length := s.rx.length - 1
        rx.current := BitVec.ofNat 16 ((s.rx.current.toNat + 1) % s.rx.size.toNat) }) ∧
    (s.tx.length = 0 → exec .uopPopTx s = .next { s with opRes := .empty }) ∧
    (∀ b, s.tx.length ≠ 0 → Memory.read s.tx.store s.tx.current.toNat = some b →
      exec .uopPopTx s = .next { s with
        opRes := .ok b, tx.length := s.tx.length - 1
        tx.current := BitVec.ofNat 16 ((s.tx.current.toNat + 1) % s.tx.size.toNat) }) ∧
    (s.tx.length ≠ 0 → Memory.read s.tx.store s.tx.current.toNat = none →
      exec .uopPopTx s = .next { s with
        opRes := .ok (Config.drawByte s.draws), draws := s.draws + 1, tx.length := s.tx.length - 1
        tx.current := BitVec.ofNat 16 ((s.tx.current.toNat + 1) % s.tx.size.toNat) })

/-- R123: PUSH writes its byte after the newest and answers it, or answers `FULL` and changes nothing.
`opArg` and `opRes` are the model's operand and result latches (log 15). -/
def Obligations.PushPrimitive : Prop :=
  ∀ s : State,
    (s.rx.length.toNat < s.rx.size.toNat →
      exec .uopPushRx s = .next { s with
        opRes := .ok s.opArg, rx.length := s.rx.length + 1
        rx.store := Memory.write s.rx.store
          ((s.rx.current.toNat + s.rx.length.toNat) % s.rx.size.toNat) s.opArg }) ∧
    (s.rx.size.toNat ≤ s.rx.length.toNat → exec .uopPushRx s = .next { s with opRes := .full }) ∧
    (s.tx.length.toNat < s.tx.size.toNat →
      exec .uopPushTx s = .next { s with
        opRes := .ok s.opArg, tx.length := s.tx.length + 1
        tx.store := Memory.write s.tx.store
          ((s.tx.current.toNat + s.tx.length.toNat) % s.tx.size.toNat) s.opArg }) ∧
    (s.tx.size.toNat ≤ s.tx.length.toNat → exec .uopPushTx s = .next { s with opRes := .full })

/-- R129 (4): in a sound ring PUSH with room appends to the contents, and POP removes their head. -/
def Obligations.PrimitivesActOnTheContents : Prop :=
  ∀ (r : Ring) (b : Byte), r.wf = true →
    (r.length.toNat < r.size.toNat →
      (r.pushed b).wf = true ∧ (r.pushed b).contents = r.contents ++ [some b]) ∧
    (r.length ≠ 0 →
      r.popped.wf = true ∧
      r.contents = Memory.read r.store r.current.toNat :: r.popped.contents) ∧
    ({ r with length := 0 } : Ring).contents = [] ∧ { r with length := 0 : Ring }.wf = true ∧
    ({ r with length := 0, current := 0 } : Ring).contents = [] ∧
    { r with length := 0, current := 0 : Ring }.wf = true

/-- R129 (2) and (3): pushing `n ≤ size` bytes into an empty sound ring and popping `n` times gives them
back in order, and a push into a full ring is refused. -/
def Obligations.RingIsFirstInFirstOut : Prop :=
  ∀ (s : State) (sel : RingSel) (bs : List Byte), (s.ring sel).wf = true → (s.ring sel).length = 0 →
    bs.length ≤ (s.ring sel).size.toNat →
    let pushes := bs.foldl (fun u b => (ringPush sel b u).2) s
    let pops (n : Nat) : List OpResult × State :=
      (List.range n).foldl (fun p _ => (p.1 ++ [(ringPop sel p.2).1], (ringPop sel p.2).2)) ([], pushes)
    (pops bs.length).1 = bs.map .ok ∧ ((pops bs.length).2.ring sel).length = 0 ∧
    (bs.length = (s.ring sel).size.toNat → ∀ b, ringPush sel b pushes = (.full, pushes))

/-! ## Chip commands (41_radio_fsm.md) -/

/-- R161, R163: on a chip that reacts in its own steps, a chip command is the one write of `TRX_CMD`;
`TX_START` also grants one emission. -/
def Obligations.ChipCommandsOnAnyChip : Prop :=
  ∀ s : State, s.chipModel = .anyChip →
    exec .trxTxStart s =
      .next { s with chip.trxCmd := 0x02, chip.grants := s.chip.grants + 1 } ∧
    exec .trxForceIdle s = .next { s with chip.trxCmd := 0x03 } ∧
    exec .trxListen s = .next { s with chip.trxCmd := 0x06 } ∧
    exec .trxIdle s = .next { s with chip.trxCmd := 0x08 } ∧
    exec .trxReady s = .next { s with chip.trxCmd := 0x09 } ∧
    exec .trxSleep s = .next { s with chip.trxCmd := 0x0F } ∧
    exec .trxWake s = .next { s with chip.trxCmd := 0x10 }

/-- R166 to R171: the reactions of the reference chip to every command but `TX_START`. That a reaction keeps
bits 7:5 of `TRX_STATUS` is in none of these rules: it is the model's inference (log 20). -/
def Obligations.ChipCommandsOnTheReferenceChip : Prop :=
  ∀ s : State, s.chipModel = .ref →
    let lands (cmd : Byte) (code : BitVec 5) (armed : Bool) : Answer :=
      .next { s with
        chip.trxCmd := cmd, chip.armed := armed
        chip.trxStatus := s.chip.trxStatus.extractLsb' 5 3 ++ code }
    let ignored (cmd : Byte) : Answer := .next { s with chip.trxCmd := cmd }
    exec .trxForceIdle s = (if chipState s ≠ 0x0F then lands 0x03 0x08 false else ignored 0x03) ∧
    exec .trxListen s =
      (if chipState s = 0x08 ∨ chipState s = 0x09 ∨ chipState s = 0x06 then lands 0x06 0x06 false
       else ignored 0x06) ∧
    exec .trxIdle s = (if chipState s ≠ 0x0F then lands 0x08 0x08 false else ignored 0x08) ∧
    exec .trxReady s =
      (if chipState s = 0x08 ∨ chipState s = 0x06 ∨ chipState s = 0x09 then lands 0x09 0x09 true
       else ignored 0x09) ∧
    exec .trxSleep s =
      (if chipState s = 0x08 then lands 0x0F 0x0F s.chip.armed else ignored 0x0F) ∧
    exec .trxWake s = (if chipState s = 0x0F then lands 0x10 0x08 s.chip.armed else ignored 0x10)

/-- R165 with 43_frame_assembler.md R206: on the reference chip in `READY_TO_SEND` and armed, `TX_START`
appends the record of the frame in `FB`, fires `TX_COMPLETE` and clears `armed`, the state kept; else it
does nothing. That the grant of R163 (c) is counted for this chip too is the model's choice (log 20). -/
def Obligations.TxStartOnTheReferenceChip : Prop :=
  ∀ s : State, s.chipModel = .ref →
    (∀ (len : Byte) (bs : List Byte), chipState s = 0x09 → s.chip.armed = true →
      Memory.read s.chip.fb 0 = some len → 2 ≤ len.toNat → len.toNat ≤ 127 →
      bs.length = len.toNat - 2 →
      (∀ j, (h : j < bs.length) → Memory.read s.chip.fb (1 + j) = some bs[j]) →
      exec .trxTxStart s =
        .next { s with
          txLog := s.txLog ++ [{ len := len, payload := some bs }]
          chip.trxCmd := 0x02, chip.armed := false
          pend.txComplete := s.pend.txComplete || s.en.txComplete }) ∧
    (∀ len : Byte, chipState s = 0x09 → s.chip.armed = true →
      Memory.read s.chip.fb 0 = some len → (len.toNat < 2 ∨ 127 < len.toNat) →
      exec .trxTxStart s =
        .next { s with
          txLog := s.txLog ++ [{ len := len, payload := none }]
          chip.trxCmd := 0x02, chip.armed := false
          pend.txComplete := s.pend.txComplete || s.en.txComplete }) ∧
    ((chipState s ≠ 0x09 ∨ s.chip.armed = false) →
      exec .trxTxStart s =
        .next { s with chip.trxCmd := 0x02, chip.grants := s.chip.grants + 1 })

/-- R163, R164 with 43_frame_assembler.md R206: the reference chip takes no step of its own; any other chip
may set what it reports and its quality byte to anything, fire `TX_COMPLETE`, and emit only while it holds a
grant. Every emission spends one grant and appends one record: for `L = FB[0]` from 2 to 127 the length and
`FB[1..L-2]`, for any other `L` the length and `⊥`; a byte of `FB` never written is a draw (log 9). The
counter of grants is the model's (log 20), and so is that a step not enabled changes nothing (log 12). -/
def Obligations.ChipStepsAsAdmitted : Prop :=
  ∀ s : State,
    (s.chipModel = .ref → ∀ c, chipStep c s = s) ∧
    (s.chipModel = .anyChip →
      (∀ v, chipStep (.setStatus v) s = { s with chip.trxStatus := v }) ∧
      (∀ v, chipStep (.setQuality v) s = { s with chip.qualityLive := some v }) ∧
      chipStep .fireTxComplete s =
        { s with pend.txComplete := s.pend.txComplete || s.en.txComplete } ∧
      (s.chip.grants = 0 → chipStep .emit s = s) ∧
      (0 < s.chip.grants →
        (∃ r d, chipStep .emit s =
          { s with
            txLog := s.txLog ++ [r], chip.grants := s.chip.grants - 1, draws := s.draws + d }) ∧
        (∀ (len : Byte) (bs : List Byte), Memory.read s.chip.fb 0 = some len →
          2 ≤ len.toNat → len.toNat ≤ 127 → bs.length = len.toNat - 2 →
          (∀ j, (h : j < bs.length) → Memory.read s.chip.fb (1 + j) = some bs[j]) →
          chipStep .emit s =
            { s with
              txLog := s.txLog ++ [{ len := len, payload := some bs }]
              chip.grants := s.chip.grants - 1 }) ∧
        (∀ len : Byte, Memory.read s.chip.fb 0 = some len → (len.toNat < 2 ∨ 127 < len.toNat) →
          chipStep .emit s =
            { s with
              txLog := s.txLog ++ [{ len := len, payload := none }]
              chip.grants := s.chip.grants - 1 })))

/-! ## Events, handlers, the air -/

/-- 42_event_handlers.md R181, 10_state.md R37: onFrameStart clears its latch and captures the live
quality byte, a draw where the spec makes the byte one (log 9); that this holds in the handler's read too
is the model's inference (log 10). -/
def Obligations.FrameStartCapturesTheQuality : Prop :=
  ∀ s : State,
    (∀ q, chipState s = 0x06 → s.chip.qualityLive = some q →
      exec .evtFrameStart s = .next { s with pend.frameStart := false, qcap := q }) ∧
    ((chipState s ≠ 0x06 ∨ s.chip.qualityLive = none) →
      exec .evtFrameStart s =
        .next { s with
          pend.frameStart := false, qcap := Config.drawByte s.draws, draws := s.draws + 1 })

/-- 42_event_handlers.md R182, R183: a frame whose captured CRC_VALID is clear leaves no trace, and a
length above 127 sets `RXLEN` alone. -/
def Obligations.FrameEndDiscards : Prop :=
  ∀ s : State,
    (s.qcap.getLsbD 7 = false → exec .evtFrameEnd s = .next { s with pend.frameEnd := false }) ∧
    (∀ len : Byte, s.qcap.getLsbD 7 = true → Memory.read s.chip.fb 0 = some len → 127 < len.toNat →
      exec .evtFrameEnd s = .next { s with pend.frameEnd := false, status.rxlen := true })

/-- 42_event_handlers.md R182, R184: of a good frame's `L - 2` payload bytes the first `min(k, L - 2)` enter
`RX` in order, `k` the free places, and `rxOverflow` grows by the rest, modulo 2^16; nothing else changes. -/
def Obligations.FrameEndAcceptsThePayload : Prop :=
  ∀ (s : State) (len : Byte) (p : Nat → Byte), s.rx.wf = true → s.qcap.getLsbD 7 = true →
    Memory.read s.chip.fb 0 = some len → len.toNat ≤ 127 →
    (∀ i, 1 ≤ i → i ≤ len.toNat → Memory.read s.chip.fb i = some (p i)) →
    ∃ t, exec .evtFrameEnd s = .next t ∧
      t = { s with
        pend.frameEnd := false, rx := t.rx
        rxOverflow := s.rxOverflow +
          BitVec.ofNat 16 ((len.toNat - 2) - (s.rx.size.toNat - s.rx.length.toNat)) } ∧
      t.rx.contents = s.rx.contents ++
        (List.range (min (s.rx.size.toNat - s.rx.length.toNat) (len.toNat - 2))).map
          (fun j => some (p (1 + j))) ∧
      t.rx.size = s.rx.size ∧ t.rx.wf = true

/-- 42_event_handlers.md R185: onTransmitComplete clears its latch and has no other effect. -/
def Obligations.TxCompleteHasNoEffect : Prop :=
  ∀ s : State, exec .evtTxComplete s = .next { s with pend.txComplete := false }

/-- 60_exceptions.md R265, R267, R269: while a latch is set the block's turn runs the handler of highest
priority, START then END then TXC, and neither the sequencer nor `TX` changes. -/
def Obligations.HandlersRunByPriority : Prop :=
  ∀ s : State,
    (s.pend.frameStart = true → blockStep s = exec .evtFrameStart s) ∧
    (s.pend.frameStart = false → s.pend.frameEnd = true → blockStep s = exec .evtFrameEnd s) ∧
    (s.pend.frameStart = false → s.pend.frameEnd = false → s.pend.txComplete = true →
      blockStep s = exec .evtTxComplete s) ∧
    (∀ t, pendingVector s.pend ≠ none → blockStep s = .next t →
      t.seq = s.seq ∧ t.tx = s.tx ∧ t.initialized = s.initialized ∧ t.result = s.result ∧
      t.hostMem = s.hostMem ∧ t.chip = s.chip)

/-- 60_exceptions.md R264, R266: an event sets its latch only where its enable is 1, events of a kind
coalesce; a write of `EVT_EN` sets the three enables and clears each latch whose enable is now 0. -/
def Obligations.EventsLatchWhereEnabled : Prop :=
  ∀ s : State,
    (∀ e, s.en.get e = false → fireEvent e s = s) ∧
    (∀ e, s.en.get e = true → fireEvent e s = { s with pend := s.pend.set e true } ∧
      fireEvent e (fireEvent e s) = fireEvent e s) ∧
    (∀ v : Byte, ∃ t, chipWrite .evtEn v s = t ∧
      t = { s with en := t.en, pend := t.pend, chip.evtEn := v } ∧
      t.en.frameStart = v.getLsbD 2 ∧ t.en.frameEnd = v.getLsbD 3 ∧ t.en.txComplete = v.getLsbD 6 ∧
      ∀ e, t.pend.get e = (s.pend.get e && t.en.get e))

/-- 42_event_handlers.md R180: when each step of `AIR` is taken, and what it does. That a step not enabled
is skipped and changes nothing is the model's choice (log 12). That a frame end is taken whatever the chip
reports is R180 (b) and the side the model takes where R207 (c), R320 and R326 say otherwise (log 24). -/
def Obligations.AirStepsAsEnabled : Prop :=
  ∀ s : State,
    (∀ q, s.airPhase = .quiet → s.pend.frameEnd = false → chipState s = 0x06 →
      airStep (.frameStart q) s =
        { s with
          chip.qualityLive := some q, airPhase := .inFrame
          pend.frameStart := s.pend.frameStart || s.en.frameStart }) ∧
    (∀ q, s.airPhase = .inFrame ∨ s.pend.frameEnd = true ∨ chipState s ≠ 0x06 →
      airStep (.frameStart q) s = s) ∧
    (∀ (len : Byte) (bs : List Byte) (q : Option Byte), s.airPhase = .inFrame →
      bs.length = min len.toNat 127 →
      ∃ t, airStep (.frameEnd len bs q) s = t ∧
        t = { s with
          airPhase := .quiet, chip.fb := t.chip.fb
          chip.qualityLive := (match q with | some v => some v | none => s.chip.qualityLive)
          pend.frameEnd := s.pend.frameEnd || s.en.frameEnd } ∧
        Memory.read t.chip.fb 0 = some len ∧
        (∀ j, (h : j < bs.length) → Memory.read t.chip.fb (1 + j) = some bs[j]) ∧
        (∀ i, bs.length < i → Memory.read t.chip.fb i = Memory.read s.chip.fb i)) ∧
    (s.airPhase = .inFrame → airStep .abandon s = { s with airPhase := .quiet }) ∧
    (∀ (len : Byte) (bs : List Byte) (q : Option Byte), s.airPhase = .quiet →
      airStep (.frameEnd len bs q) s = s ∧ airStep .abandon s = s)

/-! ## The whole machine -/

/-- The invariant `State.Inv`, every step: legal parameters, sound rings (10_state.md R23), canonical
memories, `initialized` at most 16 (R29), no latch without its enable (60_exceptions.md R266), `BUSY`
exactly while a routine runs (R46), locals in bounds. -/
def Obligations.StepKeepsTheInvariant : Prop :=
  ∀ s t : State, s.Inv → step s = .next t → t.Inv

/-- The invariant holds right after power-up, for every legal parameter set, chip and draw, and so for the
reset state, whose parameters, chip and draws are the model's choice (log 4 to log 8). -/
def Obligations.PowerUpMeetsTheInvariant : Prop :=
  State.reset.Inv ∧ State.reset.Disciplined ∧
  ∀ (p : Params) (m : ChipModel) (d : PowerUpDraws), p.legal = true →
    (State.powerUp p m d).Inv ∧ (State.powerUp p m d).Disciplined

/-- 60_exceptions.md R260: no step of a state that keeps the invariant stops with a fault or a refusal,
unless it issues an unassigned code. The invariant, the faults and the refusals are the model's (log 18,
log 19). -/
def Obligations.SoundStatesNeverStop : Prop :=
  ∀ s : State, s.Inv → s.nextTurnDecodes = true → ∃ t, step s = .next t

/-- 10_state.md R45, R29 to R31: the stack keeps the shape of the routines' calls, at most three frames
deep, and its commands agree with `initialized`, whichever agent steps. -/
def Obligations.StepKeepsTheDiscipline : Prop :=
  ∀ s t : State, s.Disciplined → s.noIssueNext = true → step s = .next t →
    t.Disciplined ∧ t.seq.frames.length ≤ 3

/-- 60_exceptions.md R262, 10_state.md R22, R50: no step clears a fault bit or `refused`, and none changes a
parameter or a ring's size. -/
def Obligations.FaultBitsAreSticky : Prop :=
  ∀ s t : State, step s = .next t →
    (∀ c, s.status.has c = true → t.status.has c = true) ∧ (s.refused = true → t.refused = true) ∧
    t.rx.size = s.rx.size ∧ t.tx.size = s.tx.size ∧ t.maxPayload = s.maxPayload ∧
    t.autoflush = s.autoflush ∧ t.chipModel = s.chipModel

/-- 60_exceptions.md R262: the step in which a command raises `HADDR`, `STRLEN` or `INITACT` ends the
command and does nothing else. -/
def Obligations.CommandFaultsArePrecise : Prop :=
  ∀ (s t : State) (c : FaultCode), step s = .next t → c = .haddr ∨ c = .strlen ∨ c = .initact →
    s.status.has c = false → t.status.has c = true →
    t = { (nextTurn s).2 with
      status := { s.status.raise c with busy := false }, seq := .idle }

/-- 10_state.md R27, R28, R29, R35, R36: who writes `rxOverflow`, `txIdle`, `initialized`, `ADDR` and
`RESULT`. -/
def Obligations.RegistersHaveTheirWriters : Prop :=
  ∀ s t : State, s.noIssueNext = true → step s = .next t →
    (t.initialized ≠ s.initialized ∨ t.txIdle ≠ s.txIdle →
      s.seqTurn = some (.init .S18) ∨ s.seqTurn = some (.terminate .S2)) ∧
    (t.rxOverflow ≠ s.rxOverflow →
      s.seqTurn = some (.init .S18) ∨ s.seqTurn = some (.terminate .S2) ∨
      s.seqTurn = some (.flushRx .S3) ∨
      ((nextTurn s).1 = .block ∧ pendingVector s.pend = some 1)) ∧
    (t.addr ≠ s.addr → (nextTurn s).1 = .host (.write 4 0x04 t.addr)) ∧
    (t.result ≠ s.result → t.seq = .idle ∧ t.status.busy = false ∧
      ∃ l, s.seqTurn = some l ∧ l.isCommand = true)

/-- 10_state.md R30, R31: while the block is inactive, no sequencer step of a command other than INIT
touches either ring; and the active channel changes only through the inactive state. -/
def Obligations.InactivityIsRespected : Prop :=
  ∀ s t : State, s.Disciplined → s.noIssueNext = true → step s = .next t →
    (s.initialized = 0 → s.runsInit = false → s.seqTurn ≠ none → t.rx = s.rx ∧ t.tx = s.tx) ∧
    (t.initialized ≠ s.initialized → s.initialized = 0 ∨ t.initialized = 0)

/-- 41_radio_fsm.md R163 (c), 10_state.md R49: `txLog` only grows, by at most one record a step, and every
emission spends a grant; a step grants at most one, and only where it writes `TX_START` or the trigger. R163
(c) says this of a general chip: that the grants are a counter, kept for the reference chip too, is the
model's inference (log 20), and the issued `TX_START` is a turn of the model's own (log 2). -/
def Obligations.GrantsBoundTheEmissions : Prop :=
  ∀ s t : State, step s = .next t →
    (t.txLog = s.txLog ∨ ∃ r, t.txLog = s.txLog ++ [r]) ∧
    ∃ g, t.txLog.length + t.chip.grants = s.txLog.length + s.chip.grants + g ∧ g ≤ 1 ∧
      (g = 1 → s.seqTurn = some (.loadAndSend .S8) ∨ s.seqTurn = some (.loadAndSend .S9) ∨
        (nextTurn s).1 = .issue .trxcmd 0x02)
end

