-- ==== Sys2Proof/Laws/Encoding.lean ====
section
/-! SUPPORT. The fields of a `CMD` word (30_encoding.md R91) are read back as they were written. -/

namespace Sys2Proof

/-- The bits of a `CMD` word, field by field. -/
theorem cmdWord_getLsbD (opc a8 : Byte) (a16 : Half) (i : Nat) :
    (cmdWord opc a8 a16).getLsbD i =
      if i < 8 then opc.getLsbD i
      else if i - 8 < 8 then a8.getLsbD (i - 8) else a16.getLsbD (i - 8 - 8) := by
  have h : (cmdWord opc a8 a16).getLsbD i = ((a16 ++ a8) ++ opc).getLsbD i := rfl
  rw [h, BitVec.getLsbD_append, BitVec.getLsbD_append]

/-- `OPC` is bits 7:0. -/
@[simp] theorem opcField_cmdWord (opc a8 : Byte) (a16 : Half) :
    opcField (cmdWord opc a8 a16) = opc := by
  ext i hi
  simp [opcField, cmdWord_getLsbD, hi]

/-- `ARG8` is bits 15:8. -/
@[simp] theorem arg8Field_cmdWord (opc a8 : Byte) (a16 : Half) :
    arg8Field (cmdWord opc a8 a16) = a8 := by
  ext i hi
  simp [arg8Field, cmdWord_getLsbD, hi]

/-- `ARG16` is bits 31:16. -/
@[simp] theorem arg16Field_cmdWord (opc a8 : Byte) (a16 : Half) :
    arg16Field (cmdWord opc a8 a16) = a16 := by
  ext i hi
  have h1 : ¬16 + i < 8 := by omega
  have h2 : ¬16 + i - 8 < 8 := by omega
  have h3 : 16 + i - 8 - 8 = i := by omega
  simp only [arg16Field, BitVec.getElem_extractLsb', cmdWord_getLsbD, if_neg h1, if_neg h2, h3]
  simp [hi]

end Sys2Proof
end

