-- ==== Sys2Proof/Laws/State.lean ====
section
/-! SUPPORT. What each update of a state leaves unchanged, and what it writes: one theorem an update, its
equations rewrite rules, so that no later proof unfolds a record update. -/

namespace Sys2Proof.Machine

/-- `moveTo` writes `seq` alone. -/
@[simp] theorem moveTo_fields (l : Label) (x : Locals) (rest : List Frame) (s : State) :
    (moveTo l x rest s).maxPayload = s.maxPayload ∧ (moveTo l x rest s).autoflush = s.autoflush ∧
    (moveTo l x rest s).chipModel = s.chipModel ∧ (moveTo l x rest s).rx = s.rx ∧
    (moveTo l x rest s).tx = s.tx ∧ (moveTo l x rest s).rxOverflow = s.rxOverflow ∧
    (moveTo l x rest s).txIdle = s.txIdle ∧ (moveTo l x rest s).initialized = s.initialized ∧
    (moveTo l x rest s).qcap = s.qcap ∧ (moveTo l x rest s).addr = s.addr ∧
    (moveTo l x rest s).result = s.result ∧ (moveTo l x rest s).status = s.status ∧
    (moveTo l x rest s).pend = s.pend ∧ (moveTo l x rest s).en = s.en ∧
    (moveTo l x rest s).txLog = s.txLog ∧ (moveTo l x rest s).refused = s.refused ∧
    (moveTo l x rest s).chip = s.chip ∧ (moveTo l x rest s).airPhase = s.airPhase ∧
    (moveTo l x rest s).hostMem = s.hostMem ∧ (moveTo l x rest s).agenda = s.agenda ∧
    (moveTo l x rest s).draws = s.draws ∧ (moveTo l x rest s).busData = s.busData ∧
    (moveTo l x rest s).opArg = s.opArg ∧ (moveTo l x rest s).opRes = s.opRes ∧
    (moveTo l x rest s).seq = .run { label := l, loc := x } rest := by
  simp [moveTo]

/-- `finish` writes `RESULT`, `BUSY` and `seq` (R46). -/
@[simp] theorem finish_fields (v : Int) (s : State) :
    (finish v s).maxPayload = s.maxPayload ∧ (finish v s).autoflush = s.autoflush ∧
    (finish v s).chipModel = s.chipModel ∧ (finish v s).rx = s.rx ∧ (finish v s).tx = s.tx ∧
    (finish v s).rxOverflow = s.rxOverflow ∧ (finish v s).txIdle = s.txIdle ∧
    (finish v s).initialized = s.initialized ∧ (finish v s).qcap = s.qcap ∧
    (finish v s).addr = s.addr ∧ (finish v s).pend = s.pend ∧ (finish v s).en = s.en ∧
    (finish v s).txLog = s.txLog ∧ (finish v s).refused = s.refused ∧
    (finish v s).chip = s.chip ∧ (finish v s).airPhase = s.airPhase ∧
    (finish v s).hostMem = s.hostMem ∧ (finish v s).agenda = s.agenda ∧
    (finish v s).draws = s.draws ∧ (finish v s).busData = s.busData ∧
    (finish v s).opArg = s.opArg ∧ (finish v s).opRes = s.opRes ∧
    (finish v s).result = encodeResult v ∧
    (finish v s).status = { s.status with busy := false } ∧ (finish v s).seq = .idle := by
  simp [finish]

/-- `raiseFault` writes `STATUS` and `seq` (R262). -/
@[simp] theorem raiseFault_fields (c : FaultCode) (s : State) :
    (raiseFault c s).maxPayload = s.maxPayload ∧ (raiseFault c s).autoflush = s.autoflush ∧
    (raiseFault c s).chipModel = s.chipModel ∧ (raiseFault c s).rx = s.rx ∧
    (raiseFault c s).tx = s.tx ∧ (raiseFault c s).rxOverflow = s.rxOverflow ∧
    (raiseFault c s).txIdle = s.txIdle ∧ (raiseFault c s).initialized = s.initialized ∧
    (raiseFault c s).qcap = s.qcap ∧ (raiseFault c s).addr = s.addr ∧
    (raiseFault c s).result = s.result ∧ (raiseFault c s).pend = s.pend ∧
    (raiseFault c s).en = s.en ∧ (raiseFault c s).txLog = s.txLog ∧
    (raiseFault c s).refused = s.refused ∧ (raiseFault c s).chip = s.chip ∧
    (raiseFault c s).airPhase = s.airPhase ∧ (raiseFault c s).hostMem = s.hostMem ∧
    (raiseFault c s).agenda = s.agenda ∧ (raiseFault c s).draws = s.draws ∧
    (raiseFault c s).busData = s.busData ∧ (raiseFault c s).opArg = s.opArg ∧
    (raiseFault c s).opRes = s.opRes ∧
    (raiseFault c s).status = { s.status.raise c with busy := false } ∧
    (raiseFault c s).seq = .idle := by
  simp [raiseFault]

/-- `callSub` writes `seq`, and `BUSY` where the sequencer was idle. -/
@[simp] theorem callSub_fields (f : Frame) (s : State) :
    (callSub f s).maxPayload = s.maxPayload ∧ (callSub f s).autoflush = s.autoflush ∧
    (callSub f s).chipModel = s.chipModel ∧ (callSub f s).rx = s.rx ∧ (callSub f s).tx = s.tx ∧
    (callSub f s).rxOverflow = s.rxOverflow ∧ (callSub f s).txIdle = s.txIdle ∧
    (callSub f s).initialized = s.initialized ∧ (callSub f s).qcap = s.qcap ∧
    (callSub f s).addr = s.addr ∧ (callSub f s).result = s.result ∧ (callSub f s).pend = s.pend ∧
    (callSub f s).en = s.en ∧ (callSub f s).txLog = s.txLog ∧ (callSub f s).refused = s.refused ∧
    (callSub f s).chip = s.chip ∧ (callSub f s).airPhase = s.airPhase ∧
    (callSub f s).hostMem = s.hostMem ∧ (callSub f s).agenda = s.agenda ∧
    (callSub f s).draws = s.draws ∧ (callSub f s).busData = s.busData ∧
    (callSub f s).opArg = s.opArg ∧ (callSub f s).opRes = s.opRes ∧
    (callSub f s).seq = .run f s.seq.frames := by
  unfold callSub; split <;> simp [Seq.frames, *]

/-- `returnSub` writes `seq`, and `BUSY` and `opRes` where there is no caller. -/
@[simp] theorem returnSub_fields (v : OpResult) (give : Locals → Locals) (rest : List Frame) (s : State) :
    (returnSub v give rest s).maxPayload = s.maxPayload ∧
    (returnSub v give rest s).autoflush = s.autoflush ∧
    (returnSub v give rest s).chipModel = s.chipModel ∧ (returnSub v give rest s).rx = s.rx ∧
    (returnSub v give rest s).tx = s.tx ∧ (returnSub v give rest s).rxOverflow = s.rxOverflow ∧
    (returnSub v give rest s).txIdle = s.txIdle ∧
    (returnSub v give rest s).initialized = s.initialized ∧
    (returnSub v give rest s).qcap = s.qcap ∧ (returnSub v give rest s).addr = s.addr ∧
    (returnSub v give rest s).result = s.result ∧ (returnSub v give rest s).pend = s.pend ∧
    (returnSub v give rest s).en = s.en ∧ (returnSub v give rest s).txLog = s.txLog ∧
    (returnSub v give rest s).refused = s.refused ∧ (returnSub v give rest s).chip = s.chip ∧
    (returnSub v give rest s).airPhase = s.airPhase ∧
    (returnSub v give rest s).hostMem = s.hostMem ∧ (returnSub v give rest s).agenda = s.agenda ∧
    (returnSub v give rest s).draws = s.draws ∧ (returnSub v give rest s).busData = s.busData ∧
    (returnSub v give rest s).opArg = s.opArg := by
  unfold returnSub; split <;> simp

/-- The return of FORCE_IDLE. -/
@[simp] theorem returnFlag_fields (ok : Bool) (rest : List Frame) (s : State) :
    (returnFlag ok rest s).maxPayload = s.maxPayload ∧
    (returnFlag ok rest s).autoflush = s.autoflush ∧
    (returnFlag ok rest s).chipModel = s.chipModel ∧ (returnFlag ok rest s).rx = s.rx ∧
    (returnFlag ok rest s).tx = s.tx ∧ (returnFlag ok rest s).rxOverflow = s.rxOverflow ∧
    (returnFlag ok rest s).txIdle = s.txIdle ∧
    (returnFlag ok rest s).initialized = s.initialized ∧ (returnFlag ok rest s).qcap = s.qcap ∧
    (returnFlag ok rest s).addr = s.addr ∧ (returnFlag ok rest s).result = s.result ∧
    (returnFlag ok rest s).pend = s.pend ∧ (returnFlag ok rest s).en = s.en ∧
    (returnFlag ok rest s).txLog = s.txLog ∧ (returnFlag ok rest s).refused = s.refused ∧
    (returnFlag ok rest s).chip = s.chip ∧ (returnFlag ok rest s).airPhase = s.airPhase ∧
    (returnFlag ok rest s).hostMem = s.hostMem ∧ (returnFlag ok rest s).agenda = s.agenda ∧
    (returnFlag ok rest s).draws = s.draws ∧ (returnFlag ok rest s).busData = s.busData ∧
    (returnFlag ok rest s).opArg = s.opArg := by
  simp [returnFlag]

/-- The return of PUT_ONE and of PUSH_BLOCKING. -/
@[simp] theorem returnRing_fields (r : OpResult) (rest : List Frame) (s : State) :
    (returnRing r rest s).maxPayload = s.maxPayload ∧
    (returnRing r rest s).autoflush = s.autoflush ∧
    (returnRing r rest s).chipModel = s.chipModel ∧ (returnRing r rest s).rx = s.rx ∧
    (returnRing r rest s).tx = s.tx ∧ (returnRing r rest s).rxOverflow = s.rxOverflow ∧
    (returnRing r rest s).txIdle = s.txIdle ∧ (returnRing r rest s).initialized = s.initialized ∧
    (returnRing r rest s).qcap = s.qcap ∧ (returnRing r rest s).addr = s.addr ∧
    (returnRing r rest s).result = s.result ∧ (returnRing r rest s).pend = s.pend ∧
    (returnRing r rest s).en = s.en ∧ (returnRing r rest s).txLog = s.txLog ∧
    (returnRing r rest s).refused = s.refused ∧ (returnRing r rest s).chip = s.chip ∧
    (returnRing r rest s).airPhase = s.airPhase ∧ (returnRing r rest s).hostMem = s.hostMem ∧
    (returnRing r rest s).agenda = s.agenda ∧ (returnRing r rest s).draws = s.draws ∧
    (returnRing r rest s).busData = s.busData ∧ (returnRing r rest s).opArg = s.opArg := by
  simp [returnRing]

/-- The return of LOAD_AND_SEND. -/
@[simp] theorem returnIgnored_fields (rest : List Frame) (s : State) :
    (returnIgnored rest s).maxPayload = s.maxPayload ∧
    (returnIgnored rest s).autoflush = s.autoflush ∧
    (returnIgnored rest s).chipModel = s.chipModel ∧ (returnIgnored rest s).rx = s.rx ∧
    (returnIgnored rest s).tx = s.tx ∧ (returnIgnored rest s).rxOverflow = s.rxOverflow ∧
    (returnIgnored rest s).txIdle = s.txIdle ∧
    (returnIgnored rest s).initialized = s.initialized ∧ (returnIgnored rest s).qcap = s.qcap ∧
    (returnIgnored rest s).addr = s.addr ∧ (returnIgnored rest s).result = s.result ∧
    (returnIgnored rest s).pend = s.pend ∧ (returnIgnored rest s).en = s.en ∧
    (returnIgnored rest s).txLog = s.txLog ∧ (returnIgnored rest s).refused = s.refused ∧
    (returnIgnored rest s).chip = s.chip ∧ (returnIgnored rest s).airPhase = s.airPhase ∧
    (returnIgnored rest s).hostMem = s.hostMem ∧ (returnIgnored rest s).agenda = s.agenda ∧
    (returnIgnored rest s).draws = s.draws ∧ (returnIgnored rest s).busData = s.busData ∧
    (returnIgnored rest s).opArg = s.opArg := by
  simp [returnIgnored]

/-- `acceptCommand` writes `STATUS` and `seq` (R92). -/
@[simp] theorem acceptCommand_fields (l : Label) (x : Locals) (s : State) :
    (acceptCommand l x s).maxPayload = s.maxPayload ∧
    (acceptCommand l x s).autoflush = s.autoflush ∧
    (acceptCommand l x s).chipModel = s.chipModel ∧ (acceptCommand l x s).rx = s.rx ∧
    (acceptCommand l x s).tx = s.tx ∧ (acceptCommand l x s).rxOverflow = s.rxOverflow ∧
    (acceptCommand l x s).txIdle = s.txIdle ∧ (acceptCommand l x s).initialized = s.initialized ∧
    (acceptCommand l x s).qcap = s.qcap ∧ (acceptCommand l x s).addr = s.addr ∧
    (acceptCommand l x s).result = s.result ∧ (acceptCommand l x s).pend = s.pend ∧
    (acceptCommand l x s).en = s.en ∧ (acceptCommand l x s).txLog = s.txLog ∧
    (acceptCommand l x s).refused = s.refused ∧ (acceptCommand l x s).chip = s.chip ∧
    (acceptCommand l x s).airPhase = s.airPhase ∧ (acceptCommand l x s).hostMem = s.hostMem ∧
    (acceptCommand l x s).agenda = s.agenda ∧ (acceptCommand l x s).draws = s.draws ∧
    (acceptCommand l x s).busData = s.busData ∧ (acceptCommand l x s).opArg = s.opArg ∧
    (acceptCommand l x s).opRes = s.opRes := by
  unfold acceptCommand; split <;> simp

/-- `setRing` writes one ring. -/
@[simp] theorem setRing_fields (sel : RingSel) (r : Ring) (s : State) :
    (s.setRing sel r).maxPayload = s.maxPayload ∧ (s.setRing sel r).autoflush = s.autoflush ∧
    (s.setRing sel r).chipModel = s.chipModel ∧ (s.setRing sel r).rxOverflow = s.rxOverflow ∧
    (s.setRing sel r).txIdle = s.txIdle ∧ (s.setRing sel r).initialized = s.initialized ∧
    (s.setRing sel r).qcap = s.qcap ∧ (s.setRing sel r).addr = s.addr ∧
    (s.setRing sel r).result = s.result ∧ (s.setRing sel r).status = s.status ∧
    (s.setRing sel r).pend = s.pend ∧ (s.setRing sel r).en = s.en ∧
    (s.setRing sel r).seq = s.seq ∧ (s.setRing sel r).txLog = s.txLog ∧
    (s.setRing sel r).refused = s.refused ∧ (s.setRing sel r).chip = s.chip ∧
    (s.setRing sel r).airPhase = s.airPhase ∧ (s.setRing sel r).hostMem = s.hostMem ∧
    (s.setRing sel r).agenda = s.agenda ∧ (s.setRing sel r).draws = s.draws ∧
    (s.setRing sel r).busData = s.busData ∧ (s.setRing sel r).opArg = s.opArg ∧
    (s.setRing sel r).opRes = s.opRes := by
  cases sel <;> simp [State.setRing]

/-- `putFb` writes the frame buffer. -/
@[simp] theorem putFb_fields (i : Nat) (v : Byte) (s : State) :
    (putFb i v s).maxPayload = s.maxPayload ∧ (putFb i v s).autoflush = s.autoflush ∧
    (putFb i v s).chipModel = s.chipModel ∧ (putFb i v s).rx = s.rx ∧ (putFb i v s).tx = s.tx ∧
    (putFb i v s).rxOverflow = s.rxOverflow ∧ (putFb i v s).txIdle = s.txIdle ∧
    (putFb i v s).initialized = s.initialized ∧ (putFb i v s).qcap = s.qcap ∧
    (putFb i v s).addr = s.addr ∧ (putFb i v s).result = s.result ∧
    (putFb i v s).status = s.status ∧ (putFb i v s).pend = s.pend ∧ (putFb i v s).en = s.en ∧
    (putFb i v s).seq = s.seq ∧ (putFb i v s).txLog = s.txLog ∧
    (putFb i v s).refused = s.refused ∧ (putFb i v s).airPhase = s.airPhase ∧
    (putFb i v s).hostMem = s.hostMem ∧ (putFb i v s).agenda = s.agenda ∧
    (putFb i v s).draws = s.draws ∧ (putFb i v s).busData = s.busData ∧
    (putFb i v s).opArg = s.opArg ∧ (putFb i v s).opRes = s.opRes ∧
    (putFb i v s).chip = { s.chip with fb := Memory.write s.chip.fb i v } := by
  simp [putFb]

/-- `putHost` writes host memory. -/
@[simp] theorem putHost_fields (a : Nat) (v : Byte) (s : State) :
    (putHost a v s).maxPayload = s.maxPayload ∧ (putHost a v s).autoflush = s.autoflush ∧
    (putHost a v s).chipModel = s.chipModel ∧ (putHost a v s).rx = s.rx ∧
    (putHost a v s).tx = s.tx ∧ (putHost a v s).rxOverflow = s.rxOverflow ∧
    (putHost a v s).txIdle = s.txIdle ∧ (putHost a v s).initialized = s.initialized ∧
    (putHost a v s).qcap = s.qcap ∧ (putHost a v s).addr = s.addr ∧
    (putHost a v s).result = s.result ∧ (putHost a v s).status = s.status ∧
    (putHost a v s).pend = s.pend ∧ (putHost a v s).en = s.en ∧ (putHost a v s).seq = s.seq ∧
    (putHost a v s).txLog = s.txLog ∧ (putHost a v s).refused = s.refused ∧
    (putHost a v s).chip = s.chip ∧ (putHost a v s).airPhase = s.airPhase ∧
    (putHost a v s).agenda = s.agenda ∧ (putHost a v s).draws = s.draws ∧
    (putHost a v s).busData = s.busData ∧ (putHost a v s).opArg = s.opArg ∧
    (putHost a v s).opRes = s.opRes ∧ (putHost a v s).hostMem = Memory.write s.hostMem a v := by
  simp [putHost]

/-- `setChipState` writes `TRX_STATUS`. -/
@[simp] theorem setChipState_fields (code : BitVec 5) (s : State) :
    (setChipState code s).maxPayload = s.maxPayload ∧
    (setChipState code s).autoflush = s.autoflush ∧
    (setChipState code s).chipModel = s.chipModel ∧ (setChipState code s).rx = s.rx ∧
    (setChipState code s).tx = s.tx ∧ (setChipState code s).rxOverflow = s.rxOverflow ∧
    (setChipState code s).txIdle = s.txIdle ∧ (setChipState code s).initialized = s.initialized ∧
    (setChipState code s).qcap = s.qcap ∧ (setChipState code s).addr = s.addr ∧
    (setChipState code s).result = s.result ∧ (setChipState code s).status = s.status ∧
    (setChipState code s).pend = s.pend ∧ (setChipState code s).en = s.en ∧
    (setChipState code s).seq = s.seq ∧ (setChipState code s).txLog = s.txLog ∧
    (setChipState code s).refused = s.refused ∧ (setChipState code s).airPhase = s.airPhase ∧
    (setChipState code s).hostMem = s.hostMem ∧ (setChipState code s).agenda = s.agenda ∧
    (setChipState code s).draws = s.draws ∧ (setChipState code s).busData = s.busData ∧
    (setChipState code s).opArg = s.opArg ∧ (setChipState code s).opRes = s.opRes ∧
    (setChipState code s).chip =
      { s.chip with trxStatus := s.chip.trxStatus.extractLsb' 5 3 ++ code } := by
  simp [setChipState]

/-- `setArmed` writes `armed`. -/
@[simp] theorem setArmed_fields (v : Bool) (s : State) :
    (setArmed v s).maxPayload = s.maxPayload ∧ (setArmed v s).autoflush = s.autoflush ∧
    (setArmed v s).chipModel = s.chipModel ∧ (setArmed v s).rx = s.rx ∧
    (setArmed v s).tx = s.tx ∧ (setArmed v s).rxOverflow = s.rxOverflow ∧
    (setArmed v s).txIdle = s.txIdle ∧ (setArmed v s).initialized = s.initialized ∧
    (setArmed v s).qcap = s.qcap ∧ (setArmed v s).addr = s.addr ∧
    (setArmed v s).result = s.result ∧ (setArmed v s).status = s.status ∧
    (setArmed v s).pend = s.pend ∧ (setArmed v s).en = s.en ∧ (setArmed v s).seq = s.seq ∧
    (setArmed v s).txLog = s.txLog ∧ (setArmed v s).refused = s.refused ∧
    (setArmed v s).airPhase = s.airPhase ∧ (setArmed v s).hostMem = s.hostMem ∧
    (setArmed v s).agenda = s.agenda ∧ (setArmed v s).draws = s.draws ∧
    (setArmed v s).busData = s.busData ∧ (setArmed v s).opArg = s.opArg ∧
    (setArmed v s).opRes = s.opRes ∧ (setArmed v s).chip = { s.chip with armed := v } := by
  simp [setArmed]

/-- `grantEmission` writes `grants`. -/
@[simp] theorem grantEmission_fields (s : State) :
    (grantEmission s).maxPayload = s.maxPayload ∧ (grantEmission s).autoflush = s.autoflush ∧
    (grantEmission s).chipModel = s.chipModel ∧ (grantEmission s).rx = s.rx ∧
    (grantEmission s).tx = s.tx ∧ (grantEmission s).rxOverflow = s.rxOverflow ∧
    (grantEmission s).txIdle = s.txIdle ∧ (grantEmission s).initialized = s.initialized ∧
    (grantEmission s).qcap = s.qcap ∧ (grantEmission s).addr = s.addr ∧
    (grantEmission s).result = s.result ∧ (grantEmission s).status = s.status ∧
    (grantEmission s).pend = s.pend ∧ (grantEmission s).en = s.en ∧
    (grantEmission s).seq = s.seq ∧ (grantEmission s).txLog = s.txLog ∧
    (grantEmission s).refused = s.refused ∧ (grantEmission s).airPhase = s.airPhase ∧
    (grantEmission s).hostMem = s.hostMem ∧ (grantEmission s).agenda = s.agenda ∧
    (grantEmission s).draws = s.draws ∧ (grantEmission s).busData = s.busData ∧
    (grantEmission s).opArg = s.opArg ∧ (grantEmission s).opRes = s.opRes ∧
    (grantEmission s).chip = { s.chip with grants := s.chip.grants + 1 } := by
  simp [grantEmission]

/-- `latch` writes `opRes`. -/
@[simp] theorem latch_fields (r : OpResult × State) :
    (latch r).opRes = r.1 ∧
    (latch r).maxPayload = r.2.maxPayload ∧ (latch r).autoflush = r.2.autoflush ∧ (latch r).chipModel = r.2.chipModel ∧
    (latch r).rx = r.2.rx ∧ (latch r).tx = r.2.tx ∧ (latch r).rxOverflow = r.2.rxOverflow ∧
    (latch r).txIdle = r.2.txIdle ∧ (latch r).initialized = r.2.initialized ∧ (latch r).qcap = r.2.qcap ∧
    (latch r).addr = r.2.addr ∧ (latch r).result = r.2.result ∧ (latch r).status = r.2.status ∧
    (latch r).pend = r.2.pend ∧ (latch r).en = r.2.en ∧ (latch r).seq = r.2.seq ∧
    (latch r).txLog = r.2.txLog ∧ (latch r).refused = r.2.refused ∧ (latch r).chip = r.2.chip ∧
    (latch r).airPhase = r.2.airPhase ∧ (latch r).hostMem = r.2.hostMem ∧ (latch r).agenda = r.2.agenda ∧
    (latch r).draws = r.2.draws ∧ (latch r).busData = r.2.busData ∧ (latch r).opArg = r.2.opArg := by
  simp [latch]

/-- The ring replaced. -/
@[simp] theorem setRing_rx_rx (s : State) (r : Ring) : (s.setRing .rx r).rx = r := rfl

/-- The other ring stays. -/
@[simp] theorem setRing_rx_tx (s : State) (r : Ring) : (s.setRing .rx r).tx = s.tx := rfl

/-- The other ring stays. -/
@[simp] theorem setRing_tx_rx (s : State) (r : Ring) : (s.setRing .tx r).rx = s.rx := rfl

/-- The ring replaced. -/
@[simp] theorem setRing_tx_tx (s : State) (r : Ring) : (s.setRing .tx r).tx = r := rfl

/-- A ring read by its selector. -/
@[simp] theorem ring_rx (s : State) : s.ring .rx = s.rx := rfl

/-- A ring read by its selector. -/
@[simp] theorem ring_tx (s : State) : s.ring .tx = s.tx := rfl

/-- The stack of an idle sequencer. -/
@[simp] theorem frames_idle : Seq.frames .idle = [] := rfl

/-- The stack of a running sequencer. -/
@[simp] theorem frames_run (f : Frame) (rest : List Frame) : Seq.frames (.run f rest) = f :: rest := rfl

/-- Raising a fault leaves `BUSY`. -/
@[simp] theorem raise_busy (c : FaultCode) (st : Status) : (st.raise c).busy = st.busy := by
  cases c <;> rfl

/-- Raising a fault sets its bit and no other. -/
theorem raise_has (c d : FaultCode) (st : Status) :
    (st.raise c).has d = (decide (d = c) || st.has d) := by
  cases c <;> cases d <;> simp [Status.raise, Status.has]

/-- The bit of an event that was set or cleared. -/
theorem get_set (b : EventBits) (e d : Event) (v : Bool) :
    (b.set e v).get d = if d = e then v else b.get d := by
  cases e <;> cases d <;> simp [EventBits.get, EventBits.set]

/-- A masked latch is set where it was set and its enable is set (R266). -/
theorem get_mask (b en : EventBits) (d : Event) : (b.mask en).get d = (b.get d && en.get d) := by
  cases d <;> rfl

/-- No latch set leaves no vector, and the other way round (R265). -/
theorem pendingVector_none (p : EventBits) :
    pendingVector p = none ↔ p.frameStart = false ∧ p.frameEnd = false ∧ p.txComplete = false := by
  cases p with
  | mk a b c => cases a <;> cases b <;> cases c <;> simp [pendingVector]

end Sys2Proof.Machine
end

