-- ==== Sys2Proof/Laws/Frames.lean ====
section
/-! SUPPORT. What the draws, the chip port, the reference chip, the agents and the handlers leave unchanged. -/

namespace Sys2Proof.Machine

/-- A draw moves `draws` alone. -/
@[simp] theorem drawn_fields (c : Option Byte) (s : State) :
    ((drawn c s).2).maxPayload = s.maxPayload ∧ ((drawn c s).2).autoflush = s.autoflush ∧
    ((drawn c s).2).chipModel = s.chipModel ∧ ((drawn c s).2).rx = s.rx ∧
    ((drawn c s).2).tx = s.tx ∧ ((drawn c s).2).rxOverflow = s.rxOverflow ∧
    ((drawn c s).2).txIdle = s.txIdle ∧ ((drawn c s).2).initialized = s.initialized ∧
    ((drawn c s).2).qcap = s.qcap ∧ ((drawn c s).2).addr = s.addr ∧
    ((drawn c s).2).result = s.result ∧ ((drawn c s).2).status = s.status ∧
    ((drawn c s).2).pend = s.pend ∧ ((drawn c s).2).en = s.en ∧ ((drawn c s).2).seq = s.seq ∧
    ((drawn c s).2).txLog = s.txLog ∧ ((drawn c s).2).refused = s.refused ∧
    ((drawn c s).2).chip = s.chip ∧ ((drawn c s).2).airPhase = s.airPhase ∧
    ((drawn c s).2).hostMem = s.hostMem ∧ ((drawn c s).2).agenda = s.agenda ∧
    ((drawn c s).2).busData = s.busData ∧ ((drawn c s).2).opArg = s.opArg ∧
    ((drawn c s).2).opRes = s.opRes := by
  unfold drawn; split <;> simp

/-- A read of `QUALITY_LIVE` moves `draws` alone. -/
@[simp] theorem readQuality_fields (s : State) :
    ((readQuality s).2).maxPayload = s.maxPayload ∧ ((readQuality s).2).autoflush = s.autoflush ∧
    ((readQuality s).2).chipModel = s.chipModel ∧ ((readQuality s).2).rx = s.rx ∧
    ((readQuality s).2).tx = s.tx ∧ ((readQuality s).2).rxOverflow = s.rxOverflow ∧
    ((readQuality s).2).txIdle = s.txIdle ∧ ((readQuality s).2).initialized = s.initialized ∧
    ((readQuality s).2).qcap = s.qcap ∧ ((readQuality s).2).addr = s.addr ∧
    ((readQuality s).2).result = s.result ∧ ((readQuality s).2).status = s.status ∧
    ((readQuality s).2).pend = s.pend ∧ ((readQuality s).2).en = s.en ∧
    ((readQuality s).2).seq = s.seq ∧ ((readQuality s).2).txLog = s.txLog ∧
    ((readQuality s).2).refused = s.refused ∧ ((readQuality s).2).chip = s.chip ∧
    ((readQuality s).2).airPhase = s.airPhase ∧ ((readQuality s).2).hostMem = s.hostMem ∧
    ((readQuality s).2).agenda = s.agenda ∧ ((readQuality s).2).busData = s.busData ∧
    ((readQuality s).2).opArg = s.opArg ∧ ((readQuality s).2).opRes = s.opRes := by
  simp [readQuality]

/-- A read of `FB` moves `draws` alone. -/
@[simp] theorem readFb_fields (i : Nat) (s : State) :
    ((readFb i s).2).maxPayload = s.maxPayload ∧ ((readFb i s).2).autoflush = s.autoflush ∧
    ((readFb i s).2).chipModel = s.chipModel ∧ ((readFb i s).2).rx = s.rx ∧
    ((readFb i s).2).tx = s.tx ∧ ((readFb i s).2).rxOverflow = s.rxOverflow ∧
    ((readFb i s).2).txIdle = s.txIdle ∧ ((readFb i s).2).initialized = s.initialized ∧
    ((readFb i s).2).qcap = s.qcap ∧ ((readFb i s).2).addr = s.addr ∧
    ((readFb i s).2).result = s.result ∧ ((readFb i s).2).status = s.status ∧
    ((readFb i s).2).pend = s.pend ∧ ((readFb i s).2).en = s.en ∧ ((readFb i s).2).seq = s.seq ∧
    ((readFb i s).2).txLog = s.txLog ∧ ((readFb i s).2).refused = s.refused ∧
    ((readFb i s).2).chip = s.chip ∧ ((readFb i s).2).airPhase = s.airPhase ∧
    ((readFb i s).2).hostMem = s.hostMem ∧ ((readFb i s).2).agenda = s.agenda ∧
    ((readFb i s).2).busData = s.busData ∧ ((readFb i s).2).opArg = s.opArg ∧
    ((readFb i s).2).opRes = s.opRes := by
  simp [readFb]

/-- A read of many bytes of `FB` moves `draws` alone. -/
@[simp] theorem readFbRange_fields (i n : Nat) (s : State) :
    ((readFbRange i n s).2).maxPayload = s.maxPayload ∧
    ((readFbRange i n s).2).autoflush = s.autoflush ∧
    ((readFbRange i n s).2).chipModel = s.chipModel ∧ ((readFbRange i n s).2).rx = s.rx ∧
    ((readFbRange i n s).2).tx = s.tx ∧ ((readFbRange i n s).2).rxOverflow = s.rxOverflow ∧
    ((readFbRange i n s).2).txIdle = s.txIdle ∧
    ((readFbRange i n s).2).initialized = s.initialized ∧ ((readFbRange i n s).2).qcap = s.qcap ∧
    ((readFbRange i n s).2).addr = s.addr ∧ ((readFbRange i n s).2).result = s.result ∧
    ((readFbRange i n s).2).status = s.status ∧ ((readFbRange i n s).2).pend = s.pend ∧
    ((readFbRange i n s).2).en = s.en ∧ ((readFbRange i n s).2).seq = s.seq ∧
    ((readFbRange i n s).2).txLog = s.txLog ∧ ((readFbRange i n s).2).refused = s.refused ∧
    ((readFbRange i n s).2).chip = s.chip ∧ ((readFbRange i n s).2).airPhase = s.airPhase ∧
    ((readFbRange i n s).2).hostMem = s.hostMem ∧ ((readFbRange i n s).2).agenda = s.agenda ∧
    ((readFbRange i n s).2).busData = s.busData ∧ ((readFbRange i n s).2).opArg = s.opArg ∧
    ((readFbRange i n s).2).opRes = s.opRes := by
  induction n generalizing i s with
  | zero => simp [readFbRange]
  | succ n ih => simp [readFbRange, ih]

/-- RESET writes one ring. -/
@[simp] theorem ringReset_fields (sel : RingSel) (s : State) :
    (ringReset sel s).maxPayload = s.maxPayload ∧ (ringReset sel s).autoflush = s.autoflush ∧
    (ringReset sel s).chipModel = s.chipModel ∧ (ringReset sel s).rxOverflow = s.rxOverflow ∧
    (ringReset sel s).txIdle = s.txIdle ∧ (ringReset sel s).initialized = s.initialized ∧
    (ringReset sel s).qcap = s.qcap ∧ (ringReset sel s).addr = s.addr ∧
    (ringReset sel s).result = s.result ∧ (ringReset sel s).status = s.status ∧
    (ringReset sel s).pend = s.pend ∧ (ringReset sel s).en = s.en ∧
    (ringReset sel s).seq = s.seq ∧ (ringReset sel s).txLog = s.txLog ∧
    (ringReset sel s).refused = s.refused ∧ (ringReset sel s).chip = s.chip ∧
    (ringReset sel s).airPhase = s.airPhase ∧ (ringReset sel s).hostMem = s.hostMem ∧
    (ringReset sel s).agenda = s.agenda ∧ (ringReset sel s).draws = s.draws ∧
    (ringReset sel s).busData = s.busData ∧ (ringReset sel s).opArg = s.opArg ∧
    (ringReset sel s).opRes = s.opRes := by
  simp [ringReset]

/-- FLUSH writes one ring. -/
@[simp] theorem ringFlush_fields (sel : RingSel) (s : State) :
    (ringFlush sel s).maxPayload = s.maxPayload ∧ (ringFlush sel s).autoflush = s.autoflush ∧
    (ringFlush sel s).chipModel = s.chipModel ∧ (ringFlush sel s).rxOverflow = s.rxOverflow ∧
    (ringFlush sel s).txIdle = s.txIdle ∧ (ringFlush sel s).initialized = s.initialized ∧
    (ringFlush sel s).qcap = s.qcap ∧ (ringFlush sel s).addr = s.addr ∧
    (ringFlush sel s).result = s.result ∧ (ringFlush sel s).status = s.status ∧
    (ringFlush sel s).pend = s.pend ∧ (ringFlush sel s).en = s.en ∧
    (ringFlush sel s).seq = s.seq ∧ (ringFlush sel s).txLog = s.txLog ∧
    (ringFlush sel s).refused = s.refused ∧ (ringFlush sel s).chip = s.chip ∧
    (ringFlush sel s).airPhase = s.airPhase ∧ (ringFlush sel s).hostMem = s.hostMem ∧
    (ringFlush sel s).agenda = s.agenda ∧ (ringFlush sel s).draws = s.draws ∧
    (ringFlush sel s).busData = s.busData ∧ (ringFlush sel s).opArg = s.opArg ∧
    (ringFlush sel s).opRes = s.opRes := by
  simp [ringFlush]

/-- PEEK moves `draws` alone. -/
@[simp] theorem ringPeek_fields (sel : RingSel) (s : State) :
    ((ringPeek sel s).2).maxPayload = s.maxPayload ∧
    ((ringPeek sel s).2).autoflush = s.autoflush ∧ ((ringPeek sel s).2).chipModel = s.chipModel ∧
    ((ringPeek sel s).2).rx = s.rx ∧ ((ringPeek sel s).2).tx = s.tx ∧
    ((ringPeek sel s).2).rxOverflow = s.rxOverflow ∧ ((ringPeek sel s).2).txIdle = s.txIdle ∧
    ((ringPeek sel s).2).initialized = s.initialized ∧ ((ringPeek sel s).2).qcap = s.qcap ∧
    ((ringPeek sel s).2).addr = s.addr ∧ ((ringPeek sel s).2).result = s.result ∧
    ((ringPeek sel s).2).status = s.status ∧ ((ringPeek sel s).2).pend = s.pend ∧
    ((ringPeek sel s).2).en = s.en ∧ ((ringPeek sel s).2).seq = s.seq ∧
    ((ringPeek sel s).2).txLog = s.txLog ∧ ((ringPeek sel s).2).refused = s.refused ∧
    ((ringPeek sel s).2).chip = s.chip ∧ ((ringPeek sel s).2).airPhase = s.airPhase ∧
    ((ringPeek sel s).2).hostMem = s.hostMem ∧ ((ringPeek sel s).2).agenda = s.agenda ∧
    ((ringPeek sel s).2).busData = s.busData ∧ ((ringPeek sel s).2).opArg = s.opArg ∧
    ((ringPeek sel s).2).opRes = s.opRes := by
  unfold ringPeek; split <;> simp

/-- POP writes one ring, and `draws`. -/
@[simp] theorem ringPop_fields (sel : RingSel) (s : State) :
    ((ringPop sel s).2).maxPayload = s.maxPayload ∧ ((ringPop sel s).2).autoflush = s.autoflush ∧
    ((ringPop sel s).2).chipModel = s.chipModel ∧ ((ringPop sel s).2).rxOverflow = s.rxOverflow ∧
    ((ringPop sel s).2).txIdle = s.txIdle ∧ ((ringPop sel s).2).initialized = s.initialized ∧
    ((ringPop sel s).2).qcap = s.qcap ∧ ((ringPop sel s).2).addr = s.addr ∧
    ((ringPop sel s).2).result = s.result ∧ ((ringPop sel s).2).status = s.status ∧
    ((ringPop sel s).2).pend = s.pend ∧ ((ringPop sel s).2).en = s.en ∧
    ((ringPop sel s).2).seq = s.seq ∧ ((ringPop sel s).2).txLog = s.txLog ∧
    ((ringPop sel s).2).refused = s.refused ∧ ((ringPop sel s).2).chip = s.chip ∧
    ((ringPop sel s).2).airPhase = s.airPhase ∧ ((ringPop sel s).2).hostMem = s.hostMem ∧
    ((ringPop sel s).2).agenda = s.agenda ∧ ((ringPop sel s).2).busData = s.busData ∧
    ((ringPop sel s).2).opArg = s.opArg ∧ ((ringPop sel s).2).opRes = s.opRes := by
  unfold ringPop; split <;> simp

/-- PUSH writes one ring. -/
@[simp] theorem ringPush_fields (sel : RingSel) (b : Byte) (s : State) :
    ((ringPush sel b s).2).maxPayload = s.maxPayload ∧
    ((ringPush sel b s).2).autoflush = s.autoflush ∧
    ((ringPush sel b s).2).chipModel = s.chipModel ∧
    ((ringPush sel b s).2).rxOverflow = s.rxOverflow ∧ ((ringPush sel b s).2).txIdle = s.txIdle ∧
    ((ringPush sel b s).2).initialized = s.initialized ∧ ((ringPush sel b s).2).qcap = s.qcap ∧
    ((ringPush sel b s).2).addr = s.addr ∧ ((ringPush sel b s).2).result = s.result ∧
    ((ringPush sel b s).2).status = s.status ∧ ((ringPush sel b s).2).pend = s.pend ∧
    ((ringPush sel b s).2).en = s.en ∧ ((ringPush sel b s).2).seq = s.seq ∧
    ((ringPush sel b s).2).txLog = s.txLog ∧ ((ringPush sel b s).2).refused = s.refused ∧
    ((ringPush sel b s).2).chip = s.chip ∧ ((ringPush sel b s).2).airPhase = s.airPhase ∧
    ((ringPush sel b s).2).hostMem = s.hostMem ∧ ((ringPush sel b s).2).agenda = s.agenda ∧
    ((ringPush sel b s).2).draws = s.draws ∧ ((ringPush sel b s).2).busData = s.busData ∧
    ((ringPush sel b s).2).opArg = s.opArg ∧ ((ringPush sel b s).2).opRes = s.opRes := by
  unfold ringPush; split <;> simp

/-- Building a record moves `draws` alone. -/
@[simp] theorem emissionRecord_fields (s : State) :
    ((emissionRecord s).2).maxPayload = s.maxPayload ∧
    ((emissionRecord s).2).autoflush = s.autoflush ∧
    ((emissionRecord s).2).chipModel = s.chipModel ∧ ((emissionRecord s).2).rx = s.rx ∧
    ((emissionRecord s).2).tx = s.tx ∧ ((emissionRecord s).2).rxOverflow = s.rxOverflow ∧
    ((emissionRecord s).2).txIdle = s.txIdle ∧
    ((emissionRecord s).2).initialized = s.initialized ∧ ((emissionRecord s).2).qcap = s.qcap ∧
    ((emissionRecord s).2).addr = s.addr ∧ ((emissionRecord s).2).result = s.result ∧
    ((emissionRecord s).2).status = s.status ∧ ((emissionRecord s).2).pend = s.pend ∧
    ((emissionRecord s).2).en = s.en ∧ ((emissionRecord s).2).seq = s.seq ∧
    ((emissionRecord s).2).txLog = s.txLog ∧ ((emissionRecord s).2).refused = s.refused ∧
    ((emissionRecord s).2).chip = s.chip ∧ ((emissionRecord s).2).airPhase = s.airPhase ∧
    ((emissionRecord s).2).hostMem = s.hostMem ∧ ((emissionRecord s).2).agenda = s.agenda ∧
    ((emissionRecord s).2).busData = s.busData ∧ ((emissionRecord s).2).opArg = s.opArg ∧
    ((emissionRecord s).2).opRes = s.opRes := by
  unfold emissionRecord; dsimp only; split <;> simp

/-- An emission writes `txLog`, `grants` and `draws`. -/
@[simp] theorem emitFrame_fields (s : State) :
    (emitFrame s).maxPayload = s.maxPayload ∧ (emitFrame s).autoflush = s.autoflush ∧
    (emitFrame s).chipModel = s.chipModel ∧ (emitFrame s).rx = s.rx ∧ (emitFrame s).tx = s.tx ∧
    (emitFrame s).rxOverflow = s.rxOverflow ∧ (emitFrame s).txIdle = s.txIdle ∧
    (emitFrame s).initialized = s.initialized ∧ (emitFrame s).qcap = s.qcap ∧
    (emitFrame s).addr = s.addr ∧ (emitFrame s).result = s.result ∧
    (emitFrame s).status = s.status ∧ (emitFrame s).pend = s.pend ∧ (emitFrame s).en = s.en ∧
    (emitFrame s).seq = s.seq ∧ (emitFrame s).refused = s.refused ∧
    (emitFrame s).airPhase = s.airPhase ∧ (emitFrame s).hostMem = s.hostMem ∧
    (emitFrame s).agenda = s.agenda ∧ (emitFrame s).busData = s.busData ∧
    (emitFrame s).opArg = s.opArg ∧ (emitFrame s).opRes = s.opRes ∧
    (emitFrame s).txLog = s.txLog ++ [(emissionRecord s).1] ∧
    (emitFrame s).chip = { s.chip with grants := s.chip.grants - 1 } := by
  simp [emitFrame]

/-- An event sets a latch alone. -/
@[simp] theorem fireEvent_fields (e : Event) (s : State) :
    (fireEvent e s).maxPayload = s.maxPayload ∧ (fireEvent e s).autoflush = s.autoflush ∧
    (fireEvent e s).chipModel = s.chipModel ∧ (fireEvent e s).rx = s.rx ∧
    (fireEvent e s).tx = s.tx ∧ (fireEvent e s).rxOverflow = s.rxOverflow ∧
    (fireEvent e s).txIdle = s.txIdle ∧ (fireEvent e s).initialized = s.initialized ∧
    (fireEvent e s).qcap = s.qcap ∧ (fireEvent e s).addr = s.addr ∧
    (fireEvent e s).result = s.result ∧ (fireEvent e s).status = s.status ∧
    (fireEvent e s).en = s.en ∧ (fireEvent e s).seq = s.seq ∧ (fireEvent e s).txLog = s.txLog ∧
    (fireEvent e s).refused = s.refused ∧ (fireEvent e s).chip = s.chip ∧
    (fireEvent e s).airPhase = s.airPhase ∧ (fireEvent e s).hostMem = s.hostMem ∧
    (fireEvent e s).agenda = s.agenda ∧ (fireEvent e s).draws = s.draws ∧
    (fireEvent e s).busData = s.busData ∧ (fireEvent e s).opArg = s.opArg ∧
    (fireEvent e s).opRes = s.opRes := by
  unfold fireEvent; split <;> simp

/-- On `TX_START` the reference chip changes no more than itself, its record and its event. -/
@[simp] theorem refTransmit_fields (s : State) :
    (refTransmit s).maxPayload = s.maxPayload ∧ (refTransmit s).autoflush = s.autoflush ∧
    (refTransmit s).chipModel = s.chipModel ∧ (refTransmit s).rx = s.rx ∧
    (refTransmit s).tx = s.tx ∧ (refTransmit s).rxOverflow = s.rxOverflow ∧
    (refTransmit s).txIdle = s.txIdle ∧ (refTransmit s).initialized = s.initialized ∧
    (refTransmit s).qcap = s.qcap ∧ (refTransmit s).addr = s.addr ∧
    (refTransmit s).result = s.result ∧ (refTransmit s).status = s.status ∧
    (refTransmit s).en = s.en ∧ (refTransmit s).seq = s.seq ∧
    (refTransmit s).refused = s.refused ∧ (refTransmit s).airPhase = s.airPhase ∧
    (refTransmit s).hostMem = s.hostMem ∧ (refTransmit s).agenda = s.agenda ∧
    (refTransmit s).busData = s.busData ∧ (refTransmit s).opArg = s.opArg ∧
    (refTransmit s).opRes = s.opRes := by
  unfold refTransmit; split <;> simp

/-- On `IDLE` the reference chip changes no more than itself. -/
@[simp] theorem refToIdle_fields (s : State) :
    (refToIdle s).maxPayload = s.maxPayload ∧ (refToIdle s).autoflush = s.autoflush ∧
    (refToIdle s).chipModel = s.chipModel ∧ (refToIdle s).rx = s.rx ∧ (refToIdle s).tx = s.tx ∧
    (refToIdle s).rxOverflow = s.rxOverflow ∧ (refToIdle s).txIdle = s.txIdle ∧
    (refToIdle s).initialized = s.initialized ∧ (refToIdle s).qcap = s.qcap ∧
    (refToIdle s).addr = s.addr ∧ (refToIdle s).result = s.result ∧
    (refToIdle s).status = s.status ∧ (refToIdle s).pend = s.pend ∧ (refToIdle s).en = s.en ∧
    (refToIdle s).seq = s.seq ∧ (refToIdle s).txLog = s.txLog ∧
    (refToIdle s).refused = s.refused ∧ (refToIdle s).airPhase = s.airPhase ∧
    (refToIdle s).hostMem = s.hostMem ∧ (refToIdle s).agenda = s.agenda ∧
    (refToIdle s).draws = s.draws ∧ (refToIdle s).busData = s.busData ∧
    (refToIdle s).opArg = s.opArg ∧ (refToIdle s).opRes = s.opRes := by
  unfold refToIdle; split <;> simp

/-- On `LISTEN` the reference chip changes no more than itself. -/
@[simp] theorem refListen_fields (s : State) :
    (refListen s).maxPayload = s.maxPayload ∧ (refListen s).autoflush = s.autoflush ∧
    (refListen s).chipModel = s.chipModel ∧ (refListen s).rx = s.rx ∧ (refListen s).tx = s.tx ∧
    (refListen s).rxOverflow = s.rxOverflow ∧ (refListen s).txIdle = s.txIdle ∧
    (refListen s).initialized = s.initialized ∧ (refListen s).qcap = s.qcap ∧
    (refListen s).addr = s.addr ∧ (refListen s).result = s.result ∧
    (refListen s).status = s.status ∧ (refListen s).pend = s.pend ∧ (refListen s).en = s.en ∧
    (refListen s).seq = s.seq ∧ (refListen s).txLog = s.txLog ∧
    (refListen s).refused = s.refused ∧ (refListen s).airPhase = s.airPhase ∧
    (refListen s).hostMem = s.hostMem ∧ (refListen s).agenda = s.agenda ∧
    (refListen s).draws = s.draws ∧ (refListen s).busData = s.busData ∧
    (refListen s).opArg = s.opArg ∧ (refListen s).opRes = s.opRes := by
  unfold refListen; split <;> simp

/-- On `READY` the reference chip changes no more than itself. -/
@[simp] theorem refReady_fields (s : State) :
    (refReady s).maxPayload = s.maxPayload ∧ (refReady s).autoflush = s.autoflush ∧
    (refReady s).chipModel = s.chipModel ∧ (refReady s).rx = s.rx ∧ (refReady s).tx = s.tx ∧
    (refReady s).rxOverflow = s.rxOverflow ∧ (refReady s).txIdle = s.txIdle ∧
    (refReady s).initialized = s.initialized ∧ (refReady s).qcap = s.qcap ∧
    (refReady s).addr = s.addr ∧ (refReady s).result = s.result ∧
    (refReady s).status = s.status ∧ (refReady s).pend = s.pend ∧ (refReady s).en = s.en ∧
    (refReady s).seq = s.seq ∧ (refReady s).txLog = s.txLog ∧ (refReady s).refused = s.refused ∧
    (refReady s).airPhase = s.airPhase ∧ (refReady s).hostMem = s.hostMem ∧
    (refReady s).agenda = s.agenda ∧ (refReady s).draws = s.draws ∧
    (refReady s).busData = s.busData ∧ (refReady s).opArg = s.opArg ∧
    (refReady s).opRes = s.opRes := by
  unfold refReady; split <;> simp

/-- On `SLEEP` the reference chip changes no more than itself. -/
@[simp] theorem refSleep_fields (s : State) :
    (refSleep s).maxPayload = s.maxPayload ∧ (refSleep s).autoflush = s.autoflush ∧
    (refSleep s).chipModel = s.chipModel ∧ (refSleep s).rx = s.rx ∧ (refSleep s).tx = s.tx ∧
    (refSleep s).rxOverflow = s.rxOverflow ∧ (refSleep s).txIdle = s.txIdle ∧
    (refSleep s).initialized = s.initialized ∧ (refSleep s).qcap = s.qcap ∧
    (refSleep s).addr = s.addr ∧ (refSleep s).result = s.result ∧
    (refSleep s).status = s.status ∧ (refSleep s).pend = s.pend ∧ (refSleep s).en = s.en ∧
    (refSleep s).seq = s.seq ∧ (refSleep s).txLog = s.txLog ∧ (refSleep s).refused = s.refused ∧
    (refSleep s).airPhase = s.airPhase ∧ (refSleep s).hostMem = s.hostMem ∧
    (refSleep s).agenda = s.agenda ∧ (refSleep s).draws = s.draws ∧
    (refSleep s).busData = s.busData ∧ (refSleep s).opArg = s.opArg ∧
    (refSleep s).opRes = s.opRes := by
  unfold refSleep; split <;> simp

/-- On `WAKE` the reference chip changes no more than itself. -/
@[simp] theorem refWake_fields (s : State) :
    (refWake s).maxPayload = s.maxPayload ∧ (refWake s).autoflush = s.autoflush ∧
    (refWake s).chipModel = s.chipModel ∧ (refWake s).rx = s.rx ∧ (refWake s).tx = s.tx ∧
    (refWake s).rxOverflow = s.rxOverflow ∧ (refWake s).txIdle = s.txIdle ∧
    (refWake s).initialized = s.initialized ∧ (refWake s).qcap = s.qcap ∧
    (refWake s).addr = s.addr ∧ (refWake s).result = s.result ∧ (refWake s).status = s.status ∧
    (refWake s).pend = s.pend ∧ (refWake s).en = s.en ∧ (refWake s).seq = s.seq ∧
    (refWake s).txLog = s.txLog ∧ (refWake s).refused = s.refused ∧
    (refWake s).airPhase = s.airPhase ∧ (refWake s).hostMem = s.hostMem ∧
    (refWake s).agenda = s.agenda ∧ (refWake s).draws = s.draws ∧
    (refWake s).busData = s.busData ∧ (refWake s).opArg = s.opArg ∧
    (refWake s).opRes = s.opRes := by
  unfold refWake; split <;> simp

/-- On the reset pulse the reference chip changes itself alone. -/
@[simp] theorem refReset_fields (s : State) :
    (refReset s).maxPayload = s.maxPayload ∧ (refReset s).autoflush = s.autoflush ∧
    (refReset s).chipModel = s.chipModel ∧ (refReset s).rx = s.rx ∧ (refReset s).tx = s.tx ∧
    (refReset s).rxOverflow = s.rxOverflow ∧ (refReset s).txIdle = s.txIdle ∧
    (refReset s).initialized = s.initialized ∧ (refReset s).qcap = s.qcap ∧
    (refReset s).addr = s.addr ∧ (refReset s).result = s.result ∧
    (refReset s).status = s.status ∧ (refReset s).pend = s.pend ∧ (refReset s).en = s.en ∧
    (refReset s).seq = s.seq ∧ (refReset s).txLog = s.txLog ∧ (refReset s).refused = s.refused ∧
    (refReset s).airPhase = s.airPhase ∧ (refReset s).hostMem = s.hostMem ∧
    (refReset s).agenda = s.agenda ∧ (refReset s).draws = s.draws ∧
    (refReset s).busData = s.busData ∧ (refReset s).opArg = s.opArg ∧
    (refReset s).opRes = s.opRes := by
  simp [refReset]

/-- On any command the reference chip changes no more than itself, its record and its event. -/
@[simp] theorem refCommand_fields (v : Byte) (s : State) :
    (refCommand v s).maxPayload = s.maxPayload ∧ (refCommand v s).autoflush = s.autoflush ∧
    (refCommand v s).chipModel = s.chipModel ∧ (refCommand v s).rx = s.rx ∧
    (refCommand v s).tx = s.tx ∧ (refCommand v s).rxOverflow = s.rxOverflow ∧
    (refCommand v s).txIdle = s.txIdle ∧ (refCommand v s).initialized = s.initialized ∧
    (refCommand v s).qcap = s.qcap ∧ (refCommand v s).addr = s.addr ∧
    (refCommand v s).result = s.result ∧ (refCommand v s).status = s.status ∧
    (refCommand v s).en = s.en ∧ (refCommand v s).seq = s.seq ∧
    (refCommand v s).refused = s.refused ∧ (refCommand v s).airPhase = s.airPhase ∧
    (refCommand v s).hostMem = s.hostMem ∧ (refCommand v s).agenda = s.agenda ∧
    (refCommand v s).busData = s.busData ∧ (refCommand v s).opArg = s.opArg ∧
    (refCommand v s).opRes = s.opRes := by
  unfold refCommand; split <;> simp

/-- On `PIN` the reference chip changes no more than itself, its record and its event. -/
@[simp] theorem refPin_fields (v : Byte) (s : State) :
    (refPin v s).maxPayload = s.maxPayload ∧ (refPin v s).autoflush = s.autoflush ∧
    (refPin v s).chipModel = s.chipModel ∧ (refPin v s).rx = s.rx ∧ (refPin v s).tx = s.tx ∧
    (refPin v s).rxOverflow = s.rxOverflow ∧ (refPin v s).txIdle = s.txIdle ∧
    (refPin v s).initialized = s.initialized ∧ (refPin v s).qcap = s.qcap ∧
    (refPin v s).addr = s.addr ∧ (refPin v s).result = s.result ∧
    (refPin v s).status = s.status ∧ (refPin v s).en = s.en ∧ (refPin v s).seq = s.seq ∧
    (refPin v s).refused = s.refused ∧ (refPin v s).airPhase = s.airPhase ∧
    (refPin v s).hostMem = s.hostMem ∧ (refPin v s).agenda = s.agenda ∧
    (refPin v s).busData = s.busData ∧ (refPin v s).opArg = s.opArg ∧
    (refPin v s).opRes = s.opRes := by
  unfold refPin; split <;> (try split) <;> simp

/-- What the chip does in the step of a `TRX_CMD` write. -/
@[simp] theorem reactCommand_fields (v : Byte) (s : State) :
    (reactCommand v s).maxPayload = s.maxPayload ∧ (reactCommand v s).autoflush = s.autoflush ∧
    (reactCommand v s).chipModel = s.chipModel ∧ (reactCommand v s).rx = s.rx ∧
    (reactCommand v s).tx = s.tx ∧ (reactCommand v s).rxOverflow = s.rxOverflow ∧
    (reactCommand v s).txIdle = s.txIdle ∧ (reactCommand v s).initialized = s.initialized ∧
    (reactCommand v s).qcap = s.qcap ∧ (reactCommand v s).addr = s.addr ∧
    (reactCommand v s).result = s.result ∧ (reactCommand v s).status = s.status ∧
    (reactCommand v s).en = s.en ∧ (reactCommand v s).seq = s.seq ∧
    (reactCommand v s).refused = s.refused ∧ (reactCommand v s).airPhase = s.airPhase ∧
    (reactCommand v s).hostMem = s.hostMem ∧ (reactCommand v s).agenda = s.agenda ∧
    (reactCommand v s).busData = s.busData ∧ (reactCommand v s).opArg = s.opArg ∧
    (reactCommand v s).opRes = s.opRes := by
  unfold reactCommand; split <;> simp

/-- What the chip does in the step of a `PIN` write. -/
@[simp] theorem reactPin_fields (v : Byte) (s : State) :
    (reactPin v s).maxPayload = s.maxPayload ∧ (reactPin v s).autoflush = s.autoflush ∧
    (reactPin v s).chipModel = s.chipModel ∧ (reactPin v s).rx = s.rx ∧
    (reactPin v s).tx = s.tx ∧ (reactPin v s).rxOverflow = s.rxOverflow ∧
    (reactPin v s).txIdle = s.txIdle ∧ (reactPin v s).initialized = s.initialized ∧
    (reactPin v s).qcap = s.qcap ∧ (reactPin v s).addr = s.addr ∧
    (reactPin v s).result = s.result ∧ (reactPin v s).status = s.status ∧
    (reactPin v s).en = s.en ∧ (reactPin v s).seq = s.seq ∧ (reactPin v s).refused = s.refused ∧
    (reactPin v s).airPhase = s.airPhase ∧ (reactPin v s).hostMem = s.hostMem ∧
    (reactPin v s).agenda = s.agenda ∧ (reactPin v s).busData = s.busData ∧
    (reactPin v s).opArg = s.opArg ∧ (reactPin v s).opRes = s.opRes := by
  unfold reactPin; split <;> simp

/-- A chip-port write reaches the chip, its record, the events and nothing else of the block. -/
@[simp] theorem chipWrite_fields (r : ChipReg) (v : Byte) (s : State) :
    (chipWrite r v s).maxPayload = s.maxPayload ∧ (chipWrite r v s).autoflush = s.autoflush ∧
    (chipWrite r v s).chipModel = s.chipModel ∧ (chipWrite r v s).rx = s.rx ∧
    (chipWrite r v s).tx = s.tx ∧ (chipWrite r v s).rxOverflow = s.rxOverflow ∧
    (chipWrite r v s).txIdle = s.txIdle ∧ (chipWrite r v s).initialized = s.initialized ∧
    (chipWrite r v s).qcap = s.qcap ∧ (chipWrite r v s).addr = s.addr ∧
    (chipWrite r v s).result = s.result ∧ (chipWrite r v s).status = s.status ∧
    (chipWrite r v s).seq = s.seq ∧ (chipWrite r v s).refused = s.refused ∧
    (chipWrite r v s).airPhase = s.airPhase ∧ (chipWrite r v s).hostMem = s.hostMem ∧
    (chipWrite r v s).agenda = s.agenda ∧ (chipWrite r v s).busData = s.busData ∧
    (chipWrite r v s).opArg = s.opArg ∧ (chipWrite r v s).opRes = s.opRes := by
  cases r <;> simp [chipWrite] <;> split <;> simp

/-- A `CHIP` step reaches the chip, its record and its event. -/
@[simp] theorem chipStep_fields (c : ChipStep) (s : State) :
    (chipStep c s).maxPayload = s.maxPayload ∧ (chipStep c s).autoflush = s.autoflush ∧
    (chipStep c s).chipModel = s.chipModel ∧ (chipStep c s).rx = s.rx ∧
    (chipStep c s).tx = s.tx ∧ (chipStep c s).rxOverflow = s.rxOverflow ∧
    (chipStep c s).txIdle = s.txIdle ∧ (chipStep c s).initialized = s.initialized ∧
    (chipStep c s).qcap = s.qcap ∧ (chipStep c s).addr = s.addr ∧
    (chipStep c s).result = s.result ∧ (chipStep c s).status = s.status ∧
    (chipStep c s).en = s.en ∧ (chipStep c s).seq = s.seq ∧ (chipStep c s).refused = s.refused ∧
    (chipStep c s).airPhase = s.airPhase ∧ (chipStep c s).hostMem = s.hostMem ∧
    (chipStep c s).agenda = s.agenda ∧ (chipStep c s).busData = s.busData ∧
    (chipStep c s).opArg = s.opArg ∧ (chipStep c s).opRes = s.opRes := by
  unfold chipStep; split
  · unfold chipAct; split <;> (try split) <;> simp
  · simp

/-- Setting `QUALITY_LIVE` writes the chip alone. -/
@[simp] theorem setQuality_fields (q : Option Byte) (s : State) :
    (setQuality q s).maxPayload = s.maxPayload ∧ (setQuality q s).autoflush = s.autoflush ∧
    (setQuality q s).chipModel = s.chipModel ∧ (setQuality q s).rx = s.rx ∧
    (setQuality q s).tx = s.tx ∧ (setQuality q s).rxOverflow = s.rxOverflow ∧
    (setQuality q s).txIdle = s.txIdle ∧ (setQuality q s).initialized = s.initialized ∧
    (setQuality q s).qcap = s.qcap ∧ (setQuality q s).addr = s.addr ∧
    (setQuality q s).result = s.result ∧ (setQuality q s).status = s.status ∧
    (setQuality q s).pend = s.pend ∧ (setQuality q s).en = s.en ∧ (setQuality q s).seq = s.seq ∧
    (setQuality q s).txLog = s.txLog ∧ (setQuality q s).refused = s.refused ∧
    (setQuality q s).airPhase = s.airPhase ∧ (setQuality q s).hostMem = s.hostMem ∧
    (setQuality q s).agenda = s.agenda ∧ (setQuality q s).draws = s.draws ∧
    (setQuality q s).busData = s.busData ∧ (setQuality q s).opArg = s.opArg ∧
    (setQuality q s).opRes = s.opRes := by
  unfold setQuality; split <;> simp

/-- Writing many bytes of `FB` writes the chip alone. -/
@[simp] theorem putFbRange_fields (i : Nat) (bs : List Byte) (s : State) :
    (putFbRange i bs s).maxPayload = s.maxPayload ∧ (putFbRange i bs s).autoflush = s.autoflush ∧
    (putFbRange i bs s).chipModel = s.chipModel ∧ (putFbRange i bs s).rx = s.rx ∧
    (putFbRange i bs s).tx = s.tx ∧ (putFbRange i bs s).rxOverflow = s.rxOverflow ∧
    (putFbRange i bs s).txIdle = s.txIdle ∧ (putFbRange i bs s).initialized = s.initialized ∧
    (putFbRange i bs s).qcap = s.qcap ∧ (putFbRange i bs s).addr = s.addr ∧
    (putFbRange i bs s).result = s.result ∧ (putFbRange i bs s).status = s.status ∧
    (putFbRange i bs s).pend = s.pend ∧ (putFbRange i bs s).en = s.en ∧
    (putFbRange i bs s).seq = s.seq ∧ (putFbRange i bs s).txLog = s.txLog ∧
    (putFbRange i bs s).refused = s.refused ∧ (putFbRange i bs s).airPhase = s.airPhase ∧
    (putFbRange i bs s).hostMem = s.hostMem ∧ (putFbRange i bs s).agenda = s.agenda ∧
    (putFbRange i bs s).draws = s.draws ∧ (putFbRange i bs s).busData = s.busData ∧
    (putFbRange i bs s).opArg = s.opArg ∧ (putFbRange i bs s).opRes = s.opRes := by
  induction bs generalizing i s with
  | nil => simp [putFbRange]
  | cons b bs ih => simp [putFbRange, ih]

/-- An `AIR` step reaches the chip port, its phase and an event latch. -/
@[simp] theorem airStep_fields (a : AirStep) (s : State) :
    (airStep a s).maxPayload = s.maxPayload ∧ (airStep a s).autoflush = s.autoflush ∧
    (airStep a s).chipModel = s.chipModel ∧ (airStep a s).rx = s.rx ∧ (airStep a s).tx = s.tx ∧
    (airStep a s).rxOverflow = s.rxOverflow ∧ (airStep a s).txIdle = s.txIdle ∧
    (airStep a s).initialized = s.initialized ∧ (airStep a s).qcap = s.qcap ∧
    (airStep a s).addr = s.addr ∧ (airStep a s).result = s.result ∧
    (airStep a s).status = s.status ∧ (airStep a s).en = s.en ∧ (airStep a s).seq = s.seq ∧
    (airStep a s).txLog = s.txLog ∧ (airStep a s).refused = s.refused ∧
    (airStep a s).hostMem = s.hostMem ∧ (airStep a s).agenda = s.agenda ∧
    (airStep a s).draws = s.draws ∧ (airStep a s).busData = s.busData ∧
    (airStep a s).opArg = s.opArg ∧ (airStep a s).opRes = s.opRes := by
  unfold airStep airAct; split <;> (try split) <;> simp

/-- The push loop of onFrameEnd writes `RX` and `rxOverflow` alone. -/
@[simp] theorem acceptPayload_fields (bs : List Byte) (s : State) :
    (acceptPayload bs s).maxPayload = s.maxPayload ∧
    (acceptPayload bs s).autoflush = s.autoflush ∧ (acceptPayload bs s).chipModel = s.chipModel ∧
    (acceptPayload bs s).tx = s.tx ∧ (acceptPayload bs s).txIdle = s.txIdle ∧
    (acceptPayload bs s).initialized = s.initialized ∧ (acceptPayload bs s).qcap = s.qcap ∧
    (acceptPayload bs s).addr = s.addr ∧ (acceptPayload bs s).result = s.result ∧
    (acceptPayload bs s).status = s.status ∧ (acceptPayload bs s).pend = s.pend ∧
    (acceptPayload bs s).en = s.en ∧ (acceptPayload bs s).seq = s.seq ∧
    (acceptPayload bs s).txLog = s.txLog ∧ (acceptPayload bs s).refused = s.refused ∧
    (acceptPayload bs s).chip = s.chip ∧ (acceptPayload bs s).airPhase = s.airPhase ∧
    (acceptPayload bs s).hostMem = s.hostMem ∧ (acceptPayload bs s).agenda = s.agenda ∧
    (acceptPayload bs s).draws = s.draws ∧ (acceptPayload bs s).busData = s.busData ∧
    (acceptPayload bs s).opArg = s.opArg ∧ (acceptPayload bs s).opRes = s.opRes := by
  induction bs generalizing s with
  | nil => simp [acceptPayload]
  | cons b bs ih =>
    have h := ringPush_fields .rx b s
    have ht : (ringPush .rx b s).2.tx = s.tx := by unfold ringPush; split <;> simp
    simp only [acceptPayload]
    split <;> simp [ih, ht]

/-- onFrameStart writes `qcap`. -/
@[simp] theorem onFrameStart_fields (s : State) :
    (onFrameStart s).maxPayload = s.maxPayload ∧ (onFrameStart s).autoflush = s.autoflush ∧
    (onFrameStart s).chipModel = s.chipModel ∧ (onFrameStart s).rx = s.rx ∧
    (onFrameStart s).tx = s.tx ∧ (onFrameStart s).rxOverflow = s.rxOverflow ∧
    (onFrameStart s).txIdle = s.txIdle ∧ (onFrameStart s).initialized = s.initialized ∧
    (onFrameStart s).addr = s.addr ∧ (onFrameStart s).result = s.result ∧
    (onFrameStart s).status = s.status ∧ (onFrameStart s).pend = s.pend ∧
    (onFrameStart s).en = s.en ∧ (onFrameStart s).seq = s.seq ∧
    (onFrameStart s).txLog = s.txLog ∧ (onFrameStart s).refused = s.refused ∧
    (onFrameStart s).chip = s.chip ∧ (onFrameStart s).airPhase = s.airPhase ∧
    (onFrameStart s).hostMem = s.hostMem ∧ (onFrameStart s).agenda = s.agenda ∧
    (onFrameStart s).busData = s.busData ∧ (onFrameStart s).opArg = s.opArg ∧
    (onFrameStart s).opRes = s.opRes := by
  simp [onFrameStart]

/-- onFrameEnd writes `RX`, `rxOverflow` and `RXLEN` (R182). -/
@[simp] theorem onFrameEnd_fields (s : State) :
    (onFrameEnd s).maxPayload = s.maxPayload ∧ (onFrameEnd s).autoflush = s.autoflush ∧
    (onFrameEnd s).chipModel = s.chipModel ∧ (onFrameEnd s).tx = s.tx ∧
    (onFrameEnd s).txIdle = s.txIdle ∧ (onFrameEnd s).initialized = s.initialized ∧
    (onFrameEnd s).qcap = s.qcap ∧ (onFrameEnd s).addr = s.addr ∧
    (onFrameEnd s).result = s.result ∧ (onFrameEnd s).pend = s.pend ∧ (onFrameEnd s).en = s.en ∧
    (onFrameEnd s).seq = s.seq ∧ (onFrameEnd s).txLog = s.txLog ∧
    (onFrameEnd s).refused = s.refused ∧ (onFrameEnd s).chip = s.chip ∧
    (onFrameEnd s).airPhase = s.airPhase ∧ (onFrameEnd s).hostMem = s.hostMem ∧
    (onFrameEnd s).agenda = s.agenda ∧ (onFrameEnd s).busData = s.busData ∧
    (onFrameEnd s).opArg = s.opArg ∧ (onFrameEnd s).opRes = s.opRes := by
  unfold onFrameEnd; split
  · dsimp only; split <;> simp
  · simp

end Sys2Proof.Machine
end

