-- ==== Sys2Proof/Laws/Memory.lean ====
section
/-! SUPPORT. Byte storage: a read after a write, and the canonical form every write keeps. -/

namespace Sys2Proof.Machine

/-- A read of the address just written gives the byte written. -/
@[simp] theorem read_write_same (m : Memory) (a : Nat) (v : Byte) :
    Memory.read (Memory.write m a v) a = some v := by
  induction m with
  | nil => simp [Memory.write, Memory.read]
  | cons c t ih =>
    obtain ⟨k, w⟩ := c
    simp only [Memory.write]
    split
    · simp [Memory.read]
    · split
      · simp [Memory.read]
      · rename_i h1 h2
        simp [Memory.read, ih, Ne.symm h2]

/-- A write leaves every other address as it was. -/
theorem read_write_other (m : Memory) {a b : Nat} (h : b ≠ a) (v : Byte) :
    Memory.read (Memory.write m a v) b = Memory.read m b := by
  induction m with
  | nil => simp [Memory.write, Memory.read, Ne.symm h]
  | cons c t ih =>
    obtain ⟨k, w⟩ := c
    simp only [Memory.write]
    split
    · simp [Memory.read, Ne.symm h]
    · split
      · rename_i h2
        simp [Memory.read, Ne.symm h, ← h2]
      · simp [Memory.read, ih]

/-- A read after a write, either way. -/
theorem read_write (m : Memory) (a b : Nat) (v : Byte) :
    Memory.read (Memory.write m a v) b = if b = a then some v else Memory.read m b := by
  split
  · rename_i h; rw [h]; exact read_write_same m a v
  · rename_i h; exact read_write_other m h v

/-- The canonical form of a non-empty storage: its tail has it and lies above its head. -/
theorem wf_cons (a : Nat) (v : Byte) (t : Memory) :
    Memory.wf ((a, v) :: t) = true ↔ (∀ c ∈ t, a < c.1) ∧ Memory.wf t = true := by
  induction t generalizing a v with
  | nil => simp [Memory.wf]
  | cons c t ih =>
    obtain ⟨b, w⟩ := c
    constructor
    · intro h
      simp only [Memory.wf, Bool.and_eq_true, decide_eq_true_eq] at h
      have h2 : Memory.wf ((b, w) :: t) = true := by simp [Memory.wf]; exact h.2
      have h3 := (ih b w).1 h2
      refine ⟨?_, h2⟩
      intro c hc
      rcases List.mem_cons.1 hc with rfl | hc
      · exact h.1
      · exact Nat.lt_trans h.1 (h3.1 c hc)
    · rintro ⟨h1, h2⟩
      have : a < b := h1 (b, w) (by simp)
      simp [Memory.wf, this] at h2 ⊢
      exact h2

/-- The addresses a write leaves: the old ones and the one written. -/
theorem mem_write {m : Memory} {a : Nat} {v : Byte} {c : Host.Cell}
    (h : c ∈ Memory.write m a v) : c.1 = a ∨ c ∈ m := by
  induction m with
  | nil => simp [Memory.write] at h; exact .inl (by rw [h])
  | cons d t ih =>
    obtain ⟨k, w⟩ := d
    simp only [Memory.write] at h
    split at h
    · rcases List.mem_cons.1 h with rfl | h
      · exact .inl rfl
      · exact .inr h
    · split at h
      · rcases List.mem_cons.1 h with rfl | h
        · exact .inl rfl
        · exact .inr (List.mem_cons_of_mem _ h)
      · rcases List.mem_cons.1 h with rfl | h
        · exact .inr (by simp)
        · rcases ih h with h | h
          · exact .inl h
          · exact .inr (List.mem_cons_of_mem _ h)

/-- A write keeps the canonical form. -/
theorem wf_write {m : Memory} (h : Memory.wf m = true) (a : Nat) (v : Byte) :
    Memory.wf (Memory.write m a v) = true := by
  induction m with
  | nil => simp [Memory.write, Memory.wf]
  | cons c t ih =>
    obtain ⟨k, w⟩ := c
    have hk := (wf_cons k w t).1 h
    simp only [Memory.write]
    split
    · rename_i hlt
      refine (wf_cons _ _ _).2 ⟨?_, h⟩
      intro c hc
      rcases List.mem_cons.1 hc with rfl | hc
      · exact hlt
      · exact Nat.lt_trans hlt (hk.1 c hc)
    · split
      · rename_i h2
        subst h2
        exact (wf_cons _ _ _).2 hk
      · rename_i h1 h2
        refine (wf_cons _ _ _).2 ⟨?_, ih hk.2⟩
        intro c hc
        rcases mem_write hc with h3 | h3
        · omega
        · exact hk.1 c h3

/-- A write below a bound keeps the storage below it. -/
theorem below_write {m : Memory} {bound a : Nat} (h : Memory.below bound m = true) (ha : a < bound)
    (v : Byte) : Memory.below bound (Memory.write m a v) = true := by
  simp only [Memory.below, List.all_eq_true, decide_eq_true_eq] at h ⊢
  intro c hc
  rcases mem_write hc with h3 | h3
  · omega
  · exact h c h3

end Sys2Proof.Machine
end

