-- ==== Sys2Proof/Laws/PerInstr.lean ====
section
/-! SUPPORT. One lemma for each instruction: its word fits its format, and has the format's reserved bits
zero (30_encoding.md R91, R97, R100, R101). -/

namespace Sys2Proof.Laws.EncodingFits

/-- The word of an instruction is a code of its format: it has no bit above the format's width, and the
reserved bits are zero. -/
def Statement (i : Instr) : Prop :=
  (encode i).toNat < 2 ^ i.format.bits ∧ reservedBitsZero i.format (encode i) = true

/-- Every word fits the 32-bit format of the host commands, which has no reserved bit (R91, R103). -/
theorem hcmd_fits {i : Instr} (h : i.format = .hcmd) : Statement i := by
  refine ⟨?_, by simp [h, reservedBitsZero]⟩
  rw [h]
  exact (encode i).isLt

theorem init (channel : Byte) : Statement (.init channel) := hcmd_fits rfl

theorem terminate : Statement .terminate := hcmd_fits rfl

theorem isactive : Statement .isactive := hcmd_fits rfl

theorem available : Statement .available := hcmd_fits rfl

theorem getbyte : Statement .getbyte := hcmd_fits rfl

theorem getbuffer (maxLen : Half) : Statement (.getbuffer maxLen) := hcmd_fits rfl

theorem flushrx : Statement .flushrx := hcmd_fits rfl

theorem ovfcount : Statement .ovfcount := hcmd_fits rfl

theorem putbyte (b : Byte) : Statement (.putbyte b) := hcmd_fits rfl

theorem putbuffer (len : Half) : Statement (.putbuffer len) := hcmd_fits rfl

theorem putstring : Statement .putstring := hcmd_fits rfl

theorem transmitnow : Statement .transmitnow := hcmd_fits rfl

theorem uopResetRx : Statement .uopResetRx := ⟨by decide, by decide⟩

theorem uopPeekRx : Statement .uopPeekRx := ⟨by decide, by decide⟩

theorem uopPopRx : Statement .uopPopRx := ⟨by decide, by decide⟩

theorem uopPushRx : Statement .uopPushRx := ⟨by decide, by decide⟩

theorem uopPushbRx : Statement .uopPushbRx := ⟨by decide, by decide⟩

theorem uopCapremRx : Statement .uopCapremRx := ⟨by decide, by decide⟩

theorem uopIsemptyRx : Statement .uopIsemptyRx := ⟨by decide, by decide⟩

theorem uopFlushRx : Statement .uopFlushRx := ⟨by decide, by decide⟩

theorem uopResetTx : Statement .uopResetTx := ⟨by decide, by decide⟩

theorem uopPeekTx : Statement .uopPeekTx := ⟨by decide, by decide⟩

theorem uopPopTx : Statement .uopPopTx := ⟨by decide, by decide⟩

theorem uopPushTx : Statement .uopPushTx := ⟨by decide, by decide⟩

theorem uopPushbTx : Statement .uopPushbTx := ⟨by decide, by decide⟩

theorem uopCapremTx : Statement .uopCapremTx := ⟨by decide, by decide⟩

theorem uopIsemptyTx : Statement .uopIsemptyTx := ⟨by decide, by decide⟩

theorem uopFlushTx : Statement .uopFlushTx := ⟨by decide, by decide⟩

theorem trxTxStart : Statement .trxTxStart := ⟨by decide, by decide⟩

theorem trxForceIdle : Statement .trxForceIdle := ⟨by decide, by decide⟩

theorem trxListen : Statement .trxListen := ⟨by decide, by decide⟩

theorem trxIdle : Statement .trxIdle := ⟨by decide, by decide⟩

theorem trxReady : Statement .trxReady := ⟨by decide, by decide⟩

theorem trxSleep : Statement .trxSleep := ⟨by decide, by decide⟩

theorem trxWake : Statement .trxWake := ⟨by decide, by decide⟩

theorem seqForceIdle : Statement .seqForceIdle := ⟨by decide, by decide⟩

theorem seqLoadAndSend : Statement .seqLoadAndSend := ⟨by decide, by decide⟩

theorem seqPutOne : Statement .seqPutOne := ⟨by decide, by decide⟩

theorem evtFrameStart : Statement .evtFrameStart := ⟨by decide, by decide⟩

theorem evtFrameEnd : Statement .evtFrameEnd := ⟨by decide, by decide⟩

theorem evtTxComplete : Statement .evtTxComplete := ⟨by decide, by decide⟩

end Sys2Proof.Laws.EncodingFits
end

