-- ==== Sys2Proof/Laws/Rings.lean ====
section
/-! SUPPORT. The ring primitives: what each can do, said once; that each keeps the ring invariant
(10_state.md R23); and their effect on the contents (40_ring_buffer.md R129). -/

namespace Sys2Proof.Machine

/-- The ring invariant, spelled out. -/
theorem ring_wf_iff (r : Ring) :
    r.wf = true ↔ r.length.toNat ≤ r.size.toNat ∧ r.current.toNat < r.size.toNat ∧
      Memory.wf r.store = true ∧ Memory.below r.size.toNat r.store = true := by
  simp [Ring.wf, and_assoc]

/-- A slot lies inside a ring with room. -/
theorem slot_lt {r : Ring} (h : 0 < r.size.toNat) (i : Nat) : r.slot i < r.size.toNat :=
  Nat.mod_lt _ h

/-- The length after an append. -/
theorem pushed_length {r : Ring} (b : Byte) (h : r.length.toNat < r.size.toNat) :
    (r.pushed b).length.toNat = r.length.toNat + 1 := by
  have := r.size.isLt
  simp [Ring.pushed, BitVec.toNat_ofNat]
  omega

/-- The index after a removal. -/
theorem popped_current {r : Ring} (h : 0 < r.size.toNat) :
    r.popped.current.toNat = (r.current.toNat + 1) % r.size.toNat := by
  have h1 := r.size.isLt
  have h2 := Nat.mod_lt (r.current.toNat + 1) h
  simp [Ring.popped, BitVec.toNat_ofNat]
  omega

/-- The length after a removal. -/
theorem popped_length (r : Ring) : r.popped.length.toNat = r.length.toNat - 1 := by
  have := r.length.isLt
  simp [Ring.popped, BitVec.toNat_ofNat]
  omega

/-- An append keeps the ring invariant. -/
theorem pushed_wf {r : Ring} (h : r.wf = true) (b : Byte) (hl : r.length.toNat < r.size.toNat) :
    (r.pushed b).wf = true := by
  obtain ⟨_, h2, h3, h4⟩ := (ring_wf_iff r).1 h
  refine (ring_wf_iff _).2 ⟨?_, h2, wf_write h3 _ _, below_write h4 (slot_lt (by omega) _) _⟩
  rw [pushed_length b hl]
  exact hl

/-- A removal keeps the ring invariant. -/
theorem popped_wf {r : Ring} (h : r.wf = true) : r.popped.wf = true := by
  obtain ⟨h1, h2, h3, h4⟩ := (ring_wf_iff r).1 h
  have hs : 0 < r.size.toNat := by omega
  refine (ring_wf_iff _).2 ⟨?_, ?_, h3, h4⟩
  · rw [popped_length]
    exact Nat.le_trans (Nat.sub_le _ _) h1
  · rw [popped_current hs]
    exact Nat.mod_lt _ hs

/-- RESET keeps the ring invariant. -/
theorem reset_wf {r : Ring} (h : r.wf = true) :
    ({ r with length := 0, current := 0 } : Ring).wf = true := by
  obtain ⟨_, h2, h3, h4⟩ := (ring_wf_iff r).1 h
  exact (ring_wf_iff _).2 ⟨by simp, by simp; omega, h3, h4⟩

/-- FLUSH keeps the ring invariant. -/
theorem flush_wf {r : Ring} (h : r.wf = true) : ({ r with length := 0 } : Ring).wf = true := by
  obtain ⟨_, h2, h3, h4⟩ := (ring_wf_iff r).1 h
  exact (ring_wf_iff _).2 ⟨by simp, h2, h3, h4⟩

/-- A draw's value: what was written, or the next free value. -/
theorem drawn_fst (c : Option Byte) (s : State) :
    (drawn c s).1 = c.getD (Config.drawByte s.draws) := by
  cases c <;> rfl

/-- A byte that was written is read as it stands. -/
@[simp] theorem drawn_some (b : Byte) (s : State) : drawn (some b) s = (b, s) := rfl

/-- What PUSH can do: append and answer the byte, or find the ring full and change nothing (R123). -/
theorem ringPush_cases (sel : RingSel) (b : Byte) (s : State) :
    ((s.ring sel).length.toNat < (s.ring sel).size.toNat ∧
      ringPush sel b s = (.ok b, s.setRing sel ((s.ring sel).pushed b))) ∨
    ((s.ring sel).size.toNat ≤ (s.ring sel).length.toNat ∧ ringPush sel b s = (.full, s)) := by
  unfold ringPush
  split
  · exact .inl ⟨by assumption, rfl⟩
  · exact .inr ⟨by omega, rfl⟩

/-- What POP can do: find the ring empty and change nothing, or remove the oldest byte and answer it
(R122). -/
theorem ringPop_cases (sel : RingSel) (s : State) :
    ((s.ring sel).length = 0 ∧ ringPop sel s = (.empty, s)) ∨
    ((s.ring sel).length ≠ 0 ∧
      ringPop sel s =
        (.ok (drawn (Memory.read (s.ring sel).store (s.ring sel).current.toNat) s).1,
          (drawn (Memory.read (s.ring sel).store (s.ring sel).current.toNat) s).2.setRing sel
            (s.ring sel).popped)) := by
  unfold ringPop
  split
  · exact .inl ⟨by assumption, rfl⟩
  · exact .inr ⟨by assumption, rfl⟩

/-- PUSH on one ring leaves the other. -/
@[simp] theorem ringPush_rx_tx (b : Byte) (s : State) : (ringPush .rx b s).2.tx = s.tx := by
  unfold ringPush; split <;> simp

/-- PUSH on one ring leaves the other. -/
@[simp] theorem ringPush_tx_rx (b : Byte) (s : State) : (ringPush .tx b s).2.rx = s.rx := by
  unfold ringPush; split <;> simp

/-- POP on one ring leaves the other. -/
@[simp] theorem ringPop_rx_tx (s : State) : (ringPop .rx s).2.tx = s.tx := by
  unfold ringPop; split <;> simp

/-- POP on one ring leaves the other. -/
@[simp] theorem ringPop_tx_rx (s : State) : (ringPop .tx s).2.rx = s.rx := by
  unfold ringPop; split <;> simp

/-- RESET on one ring leaves the other. -/
@[simp] theorem ringReset_other (s : State) :
    (ringReset .rx s).tx = s.tx ∧ (ringReset .tx s).rx = s.rx := by simp [ringReset]

/-- FLUSH on one ring leaves the other. -/
@[simp] theorem ringFlush_other (s : State) :
    (ringFlush .rx s).tx = s.tx ∧ (ringFlush .tx s).rx = s.rx := by simp [ringFlush]

/-- PUSH keeps a sound ring sound. -/
theorem ringPush_wf (sel : RingSel) (b : Byte) (s : State) (hr : s.rx.wf = true) (ht : s.tx.wf = true) :
    (ringPush sel b s).2.rx.wf = true ∧ (ringPush sel b s).2.tx.wf = true := by
  rcases ringPush_cases sel b s with ⟨h, e⟩ | ⟨_, e⟩ <;> rw [e]
  · cases sel
    · exact ⟨pushed_wf hr b h, ht⟩
    · exact ⟨hr, pushed_wf ht b h⟩
  · exact ⟨hr, ht⟩

/-- POP keeps a sound ring sound. -/
theorem ringPop_wf (sel : RingSel) (s : State) (hr : s.rx.wf = true) (ht : s.tx.wf = true) :
    (ringPop sel s).2.rx.wf = true ∧ (ringPop sel s).2.tx.wf = true := by
  rcases ringPop_cases sel s with ⟨_, e⟩ | ⟨_, e⟩ <;> rw [e]
  · exact ⟨hr, ht⟩
  · cases sel
    · exact ⟨popped_wf hr, by simpa using ht⟩
    · exact ⟨by simpa using hr, popped_wf ht⟩

end Sys2Proof.Machine
end

