-- ==== Sys2Proof/Laws/Steps.lean ====
section
/-! SUPPORT. What each control operation, chip write and memory access can do, said once; that every memory
operation keeps the canonical form; and the steps of an undisturbed sequencer. -/

namespace Sys2Proof.Machine

/-! ## The sequencer's control (10_state.md R46) -/

/-- Going on from a next state. -/
@[simp] theorem andThen_next (s : State) (f : State → Answer) : andThen (.next s) f = f s := rfl

/-- What is answered after an answer: it was a next state, and the rest answered from there. -/
theorem andThen_eq_next {a : Answer} {f : State → Answer} {t : State} :
    andThen a f = .next t ↔ ∃ s, a = .next s ∧ f s = .next t := by
  cases a <;> simp [andThen]

/-- What `call` can do: put a frame on top of the stack, or start as the one routine. -/
theorem callSub_cases (f : Frame) (s : State) :
    (∃ top rest, s.seq = .run top rest ∧
      callSub f s = { s with seq := .run f (top :: rest) }) ∨
    (s.seq = .idle ∧ callSub f s = { s with seq := .run f [], status.busy := true }) := by
  unfold callSub
  split
  · rename_i h; exact .inr ⟨h, rfl⟩
  · rename_i top rest h; exact .inl ⟨top, rest, h, rfl⟩

/-- What a subroutine's return can do: give its value to the caller, or leave the sequencer idle. -/
theorem returnSub_cases (v : OpResult) (give : Locals → Locals) (rest : List Frame) (s : State) :
    (∃ f fs, rest = f :: fs ∧
      returnSub v give rest s = { s with seq := .run { f with loc := give f.loc } fs }) ∨
    (rest = [] ∧
      returnSub v give rest s = { s with seq := .idle, status.busy := false, opRes := v }) := by
  cases rest with
  | nil => exact .inr ⟨rfl, rfl⟩
  | cons f fs => exact .inl ⟨f, fs, rfl, rfl⟩

/-- What a command's arrival can do: be lost with `OVR`, or start its routine (30_encoding.md R92). -/
theorem acceptCommand_cases (l : Label) (x : Locals) (s : State) :
    (s.status.busy = true ∧ acceptCommand l x s = { s with status := s.status.raise .ovr }) ∨
    (s.status.busy = false ∧
      acceptCommand l x s =
        { s with
          status.busy := true
          seq := .run { label := l, loc := { x with a32 := s.addr } } [] }) := by
  unfold acceptCommand
  split
  · rename_i h; exact .inl ⟨h, rfl⟩
  · rename_i h; exact .inr ⟨by simpa using h, rfl⟩

/-- A count returned by a command, as the word of `RESULT` (30_encoding.md R96). -/
theorem encodeResult_natCast (n : Nat) : encodeResult (n : Int) = BitVec.ofNat 32 n := by
  simp [encodeResult]

/-- -1 is all ones (R96). -/
theorem encodeResult_minus_one : encodeResult (-1) = 0xFFFFFFFF := by decide

/-- A narrow register shown in a word. -/
theorem ofNat_toNat_eq_zeroExtend {w : Nat} (x : BitVec w) :
    BitVec.ofNat 32 x.toNat = BitVec.zeroExtend 32 x := by
  apply BitVec.eq_of_toNat_eq
  simp

/-- A status whose `BUSY` is 0 is unchanged by clearing it. -/
theorem status_busy_false {st : Status} (h : st.busy = false) : { st with busy := false } = st := by
  cases st
  simp_all

/-! ## The chip port (41_radio_fsm.md R161) -/

/-- A write of a register with no reaction changes the chip's copy alone. -/
theorem chipWrite_plain (v : Byte) (s : State) :
    chipWrite .ctrl v s = { s with chip.ctrl := v } ∧
    chipWrite .channel v s = { s with chip.channel := v } ∧
    chipWrite .txPwr v s = { s with chip.txPwr := v } := ⟨rfl, rfl, rfl⟩

/-- A chip that reacts in its own steps only takes the write of a command other than `TX_START`. -/
theorem chipWrite_trxCmd_anyChip {v : Byte} {s : State} (h : s.chipModel = .anyChip)
    (hv : v.extractLsb' 0 5 ≠ 0x02) : chipWrite .trxCmd v s = { s with chip.trxCmd := v } := by
  have : v.extractLsb' 0 5 ≠ cmdTxStart.extractLsb' 0 5 := hv
  simp [chipWrite, this, reactCommand, h]

/-- The reference chip reacts in the step of a command other than `TX_START`. -/
theorem chipWrite_trxCmd_ref {v : Byte} {s : State} (h : s.chipModel = .ref)
    (hv : v.extractLsb' 0 5 ≠ 0x02) :
    chipWrite .trxCmd v s = refCommand v { s with chip.trxCmd := v } := by
  have : v.extractLsb' 0 5 ≠ cmdTxStart.extractLsb' 0 5 := hv
  simp [chipWrite, this, reactCommand, h]

/-- What the transmission of the reference chip can do (R165, R173). -/
theorem refTransmit_cases (s : State) :
    (chipState s = 0x09 ∧ s.chip.armed = true ∧
      refTransmit s = setArmed false (fireEvent .txComplete (emitFrame s))) ∨
    ((chipState s ≠ 0x09 ∨ s.chip.armed = false) ∧ refTransmit s = s) := by
  unfold refTransmit stReady
  split
  · rename_i h; exact .inl ⟨h.1, h.2, rfl⟩
  · rename_i h
    refine .inr ⟨?_, rfl⟩
    by_cases h1 : chipState s = 0x09
    · exact .inr (by simpa [h1] using h)
    · exact .inl h1

/-- What an event does: latch where its enable is 1, else nothing (60_exceptions.md R264). -/
theorem fireEvent_cases (e : Event) (s : State) :
    (s.en.get e = true ∧ fireEvent e s = { s with pend := s.pend.set e true }) ∨
    (s.en.get e = false ∧ fireEvent e s = s) := by
  unfold fireEvent
  split
  · exact .inl ⟨by assumption, rfl⟩
  · rename_i h; exact .inr ⟨by simpa using h, rfl⟩

/-- The chip reports the state that was set. -/
@[simp] theorem chipState_setChipState (code : BitVec 5) (s : State) :
    chipState (setChipState code s) = code := by
  have h : ∀ i, (setChipState code s).chip.trxStatus.getLsbD i =
      (s.chip.trxStatus.extractLsb' 5 3 ++ code : BitVec (3 + 5)).getLsbD i := fun _ => rfl
  ext i hi
  simp only [chipState, BitVec.getElem_extractLsb', Nat.zero_add, h]
  rw [BitVec.getLsbD_append]
  simp [hi]

/-- `armed` is no part of what the chip reports. -/
@[simp] theorem chipState_setArmed (v : Bool) (s : State) :
    chipState (setArmed v s) = chipState s := rfl

/-! ## Reads of the frame buffer (10_state.md R41, R42) -/

/-- A read takes no more than draws. -/
theorem drawn_draws (c : Option Byte) (s : State) :
    ∃ d, (drawn c s).2 = { s with draws := s.draws + d } := by
  cases c with
  | none => exact ⟨1, rfl⟩
  | some b => exact ⟨0, rfl⟩

/-- A read of many bytes takes no more than draws. -/
theorem readFbRange_draws (i n : Nat) (s : State) :
    ∃ d, (readFbRange i n s).2 = { s with draws := s.draws + d } := by
  induction n generalizing i s with
  | zero => exact ⟨0, rfl⟩
  | succ n ih =>
    obtain ⟨d, hd⟩ := drawn_draws (Memory.read s.chip.fb i) s
    obtain ⟨e, he⟩ := ih (i + 1) (readFb i s).2
    refine ⟨d + e, ?_⟩
    simp only [readFbRange, he]
    simp only [readFb, hd, Nat.add_assoc]

/-- Bytes that were all written are read as they stand, with no draw. -/
theorem readFbRange_written (i : Nat) (bs : List Byte) (s : State)
    (h : ∀ j, (hj : j < bs.length) → Memory.read s.chip.fb (i + j) = some bs[j]) :
    readFbRange i bs.length s = (bs, s) := by
  induction bs generalizing i with
  | nil => rfl
  | cons b bs ih =>
    have h0 := h 0 (by simp)
    have h1 := ih (i + 1) fun j hj => by
      have h2 := h (j + 1) (by simpa using hj)
      simpa [Nat.add_assoc, Nat.add_comm 1 j] using h2
    simp only [Nat.add_zero] at h0
    simp [readFbRange, readFb, h0, h1]

/-! ## Memory (20_memory.md R60, R75) -/

/-- Each place of the chip port stands at its index, and no two share one (10_state.md R40). -/
theorem chipPortAt_index (p : ChipPort) (h : p.index ≤ 0xFF) : chipPortAt p.index = some p := by
  cases p with
  | reg r => cases r <;> rfl
  | trxStatus => rfl
  | qualityLive => rfl
  | fb i =>
    simp only [ChipPort.index] at h
    simp [chipPortAt, ChipPort.index]
    omega

/-- The frame buffer ends at `FB[127]`. -/
theorem chipPortAt_fb_isSome (i : Nat) : (chipPortAt (ChipPort.fb i).index).isSome = true ↔ i < 128 := by
  by_cases h : 128 + i ≤ 255 <;> simp [chipPortAt, ChipPort.index, h] <;> omega

/-- What a frame-buffer write can do. -/
theorem writeFb_eq_next {i : Nat} {v : Byte} {s t : State} :
    writeFb i v s = .next t ↔ i < 128 ∧ t = putFb i v s := by
  unfold writeFb
  simp only [chipPortAt_fb_isSome]
  split <;> simp_all [eq_comm]

/-- A frame-buffer write inside the buffer. -/
theorem writeFb_of_lt {i : Nat} (h : i < 128) (v : Byte) (s : State) :
    writeFb i v s = .next (putFb i v s) := writeFb_eq_next.2 ⟨h, rfl⟩

/-- What a host-memory write can do. -/
theorem memWrite_eq_next {a : Nat} {v : Byte} {s t : State} :
    memWrite a v s = .next t ↔ a < 4294967296 ∧ t = putHost a v s := by
  unfold memWrite Config.hostSpace
  split <;> simp_all [eq_comm]

/-- What a host-memory read can do. -/
theorem memRead_eq_next {a : Nat} {k : Byte → Answer} {s t : State} :
    memRead a s k = .next t ↔ a < 4294967296 ∧ k (hostByteAt s a) = .next t := by
  unfold memRead Config.hostSpace
  split <;> simp_all

/-- A frame-buffer write keeps the canonical form. -/
theorem putFb_wf {i : Nat} {s : State} (v : Byte) (hi : i < Config.fbSize)
    (h : Memory.wf s.chip.fb = true ∧ Memory.below Config.fbSize s.chip.fb = true) :
    Memory.wf (putFb i v s).chip.fb = true ∧
      Memory.below Config.fbSize (putFb i v s).chip.fb = true :=
  ⟨wf_write h.1 i v, below_write h.2 hi v⟩

/-- A host-memory write keeps the canonical form. -/
theorem putHost_wf {a : Nat} {s : State} (v : Byte) (ha : a < Config.hostSpace)
    (h : Memory.wf s.hostMem = true ∧ Memory.below Config.hostSpace s.hostMem = true) :
    Memory.wf (putHost a v s).hostMem = true ∧
      Memory.below Config.hostSpace (putHost a v s).hostMem = true :=
  ⟨wf_write h.1 a v, below_write h.2 ha v⟩

/-- A write of a run of frame-buffer bytes keeps the canonical form. -/
theorem putFbRange_wf (bs : List Byte) {i : Nat} {s : State} (hi : i + bs.length ≤ Config.fbSize)
    (h : Memory.wf s.chip.fb = true ∧ Memory.below Config.fbSize s.chip.fb = true) :
    Memory.wf (putFbRange i bs s).chip.fb = true ∧
      Memory.below Config.fbSize (putFbRange i bs s).chip.fb = true := by
  induction bs generalizing i s with
  | nil => exact h
  | cons b bs ih =>
    simp only [List.length_cons] at hi
    exact ih (by omega) (putFb_wf b (by omega) h)

/-- The memories of the reset state have the canonical form. -/
theorem reset_memories_wf :
    Memory.wf State.reset.rx.store = true ∧ Memory.wf State.reset.tx.store = true ∧
      Memory.wf State.reset.chip.fb = true ∧ Memory.wf State.reset.hostMem = true := by
  decide

/-! ## Undisturbed steps -/

/-- An undisturbed state: legal parameters, no turn listed, no latch set. -/
theorem undisturbed_iff (s : State) :
    s.undisturbed = true ↔
      s.legal = true ∧ s.agenda = [] ∧ pendingVector s.pend = none := by
  simp [State.undisturbed, and_assoc]

/-- The step of an undisturbed state is the sequencer's. -/
theorem step_undisturbed {s : State} (h : s.undisturbed = true) : step s = seqStep s := by
  obtain ⟨h1, h2, h3⟩ := (undisturbed_iff s).1 h
  simp [step, h1, nextTurn, h2, takeTurn, blockStep, h3]

/-- A state that differs in nothing `undisturbed` reads is undisturbed too. -/
theorem undisturbed_congr {s t : State} (h : s.undisturbed = true)
    (h1 : t.maxPayload = s.maxPayload) (h2 : t.autoflush = s.autoflush)
    (h3 : t.rx.size = s.rx.size) (h4 : t.tx.size = s.tx.size) (h5 : t.agenda = s.agenda)
    (h6 : pendingVector t.pend = none) : t.undisturbed = true := by
  obtain ⟨ha, hb, _⟩ := (undisturbed_iff s).1 h
  refine (undisturbed_iff t).2 ⟨?_, by rw [h5, hb], h6⟩
  simpa [State.legal, h1, h2, h3, h4] using ha

/-- No step. -/
@[simp] theorem steps_zero (s : State) : steps 0 s = .next s := rfl

/-- One step first. -/
theorem steps_succ (k : Nat) (s : State) : steps (k + 1) s = andThen (step s) (steps k) := rfl

/-- Steps in two runs. -/
theorem steps_add (j k : Nat) (s : State) : steps (j + k) s = andThen (steps j s) (steps k) := by
  induction j generalizing s with
  | zero => simp
  | succ j ih =>
    have h : j + 1 + k = (j + k) + 1 := by omega
    rw [h, steps_succ, steps_succ]
    cases step s with
    | next t => simp [ih]
    | fault r => rfl
    | refused r => rfl

/-- An undisturbed step of the sequencer first. -/
theorem steps_succ_of_seqStep {s t : State} (k : Nat) (h : s.undisturbed = true)
    (hs : seqStep s = .next t) : steps (k + 1) s = steps k t := by
  rw [steps_succ, step_undisturbed h, hs, andThen_next]

end Sys2Proof.Machine
end

