-- ==== Sys2Proof/Tests/Slice0.lean ====
section
/-! SUPPORT. Tests: ill-formed terms refused; each constructor's word decoded; one or two steps of each
instruction against the vectors of 95_test_vectors.md (their ids in the comments); and a witness for the
hypotheses of each obligation. -/

namespace Sys2Proof.Tests

open Sys2Proof Sys2Proof.Machine

/-! ## Well-formedness: each check refuses an ill-formed term (00_scope.md R6; 30_encoding.md R97, R100,
R101) -/

theorem test_params_default_legal : Params.default.legal = true := by decide
theorem test_params_rx_size_zero :
    Params.legal { rxSize := 0, txSize := 1, maxPayload := 2, autoflush := 1 } = false := by decide
theorem test_params_rx_size_wide :
    Params.legal { rxSize := 65536, txSize := 1, maxPayload := 2, autoflush := 1 } = false := by decide
theorem test_params_tx_size_zero :
    Params.legal { rxSize := 1, txSize := 0, maxPayload := 2, autoflush := 1 } = false := by decide
theorem test_params_tx_size_wide :
    Params.legal { rxSize := 1, txSize := 65536, maxPayload := 2, autoflush := 1 } = false := by decide
theorem test_params_payload_one :
    Params.legal { rxSize := 1, txSize := 1, maxPayload := 1, autoflush := 1 } = false := by decide
theorem test_params_payload_128 :
    Params.legal { rxSize := 1, txSize := 1, maxPayload := 128, autoflush := 1 } = false := by decide
theorem test_params_autoflush_zero :
    Params.legal { rxSize := 1, txSize := 1, maxPayload := 2, autoflush := 0 } = false := by decide
theorem test_params_autoflush_wide :
    Params.legal { rxSize := 1, txSize := 1, maxPayload := 2, autoflush := 65536 } = false := by decide
theorem test_params_ends_legal :
    Params.legal { rxSize := 1, txSize := 65535, maxPayload := 127, autoflush := 65535 } = true := by
  decide

theorem test_uop_low_bits : decode .uop 0x31 = .error (.reservedBits .uop) := by decide
theorem test_uop_wide : decode .uop 0x100 = .error (.reservedBits .uop) := by decide
theorem test_uop_unassigned : decode .uop 0x80 = .error (.unassignedCode .uop 0x80) := by decide
theorem test_trxcmd_high_bits : decode .trxcmd 0x22 = .error (.reservedBits .trxcmd) := by decide
theorem test_trxcmd_unassigned : decode .trxcmd 0x04 = .error (.unassignedCode .trxcmd 4) := by decide
theorem test_sub_wide : decode .sub 0x11 = .error (.reservedBits .sub) := by decide
theorem test_sub_unassigned : decode .sub 0x0 = .error (.unassignedCode .sub 0) := by decide
theorem test_evt_wide : decode .evt 4 = .error (.reservedBits .evt) := by decide
theorem test_evt_unassigned : decode .evt 3 = .error (.unassignedCode .evt 3) := by decide
theorem test_hcmd_unassigned : decode .hcmd 0x00000024 = .error (.illegalOpcode 0x24) := by decide
theorem test_operands_well_formed :
    Instr.wellFormed (.init 255) = true ∧ Instr.wellFormed (.getbuffer 65535) = true := by decide

/-! ## Decoding: each constructor's word, bit by bit from R91, R93, R97, R100, R101 -/

theorem test_decode_init : decode .hcmd 0b00000000000000000000001100000001 = .ok (.init 3) := by decide
theorem test_decode_terminate : decode .hcmd 0b00000010 = .ok .terminate := by decide
theorem test_decode_isactive : decode .hcmd 0b00000011 = .ok .isactive := by decide
theorem test_decode_available : decode .hcmd 0b00010000 = .ok .available := by decide
theorem test_decode_getbyte : decode .hcmd 0b00010001 = .ok .getbyte := by decide
theorem test_decode_getbuffer :
    decode .hcmd 0b00000000000001100000000000010010 = .ok (.getbuffer 6) := by decide
theorem test_decode_flushrx : decode .hcmd 0b00010011 = .ok .flushrx := by decide
theorem test_decode_ovfcount : decode .hcmd 0b00010100 = .ok .ovfcount := by decide
theorem test_decode_putbyte :
    decode .hcmd 0b00000000000000000100000100100000 = .ok (.putbyte 0x41) := by decide
theorem test_decode_putbuffer :
    decode .hcmd 0b00000001001011000000000000100001 = .ok (.putbuffer 300) := by decide
theorem test_decode_putstring : decode .hcmd 0b00100010 = .ok .putstring := by decide
theorem test_decode_transmitnow : decode .hcmd 0b00100011 = .ok .transmitnow := by decide
/-- DEC2: unused fields are ignored. -/
theorem test_decode_unused_fields :
    decode .hcmd 0b10101011110011010000000000010001 = .ok .getbyte := by decide

/-- `op` in bits 7:4, `SEL` = 0 in bit 3. -/
theorem test_decode_uop_rx :
    decode .uop 0b00000000 = .ok .uopResetRx ∧ decode .uop 0b00010000 = .ok .uopPeekRx ∧
    decode .uop 0b00100000 = .ok .uopPopRx ∧ decode .uop 0b00110000 = .ok .uopPushRx ∧
    decode .uop 0b01000000 = .ok .uopPushbRx ∧ decode .uop 0b01010000 = .ok .uopCapremRx ∧
    decode .uop 0b01100000 = .ok .uopIsemptyRx ∧ decode .uop 0b01110000 = .ok .uopFlushRx := by decide
/-- `op` in bits 7:4, `SEL` = 1 in bit 3. -/
theorem test_decode_uop_tx :
    decode .uop 0b00001000 = .ok .uopResetTx ∧ decode .uop 0b00011000 = .ok .uopPeekTx ∧
    decode .uop 0b00101000 = .ok .uopPopTx ∧ decode .uop 0b00111000 = .ok .uopPushTx ∧
    decode .uop 0b01001000 = .ok .uopPushbTx ∧ decode .uop 0b01011000 = .ok .uopCapremTx ∧
    decode .uop 0b01101000 = .ok .uopIsemptyTx ∧ decode .uop 0b01111000 = .ok .uopFlushTx := by decide
theorem test_decode_trxcmd :
    decode .trxcmd 0b00010 = .ok .trxTxStart ∧ decode .trxcmd 0b00011 = .ok .trxForceIdle ∧
    decode .trxcmd 0b00110 = .ok .trxListen ∧ decode .trxcmd 0b01000 = .ok .trxIdle ∧
    decode .trxcmd 0b01001 = .ok .trxReady ∧ decode .trxcmd 0b01111 = .ok .trxSleep ∧
    decode .trxcmd 0b10000 = .ok .trxWake := by decide
theorem test_decode_sub :
    decode .sub 0b0001 = .ok .seqForceIdle ∧ decode .sub 0b0010 = .ok .seqLoadAndSend ∧
    decode .sub 0b0011 = .ok .seqPutOne := by decide
theorem test_decode_evt :
    decode .evt 0b00 = .ok .evtFrameStart ∧ decode .evt 0b01 = .ok .evtFrameEnd ∧
    decode .evt 0b10 = .ok .evtTxComplete := by decide

/-- Words as the opcode table gives them (log 3). -/
theorem test_table_words :
    decodeTableWord 32 0x00000301 = some (.init 3) ∧ decodeTableWord 32 0x23 = some .transmitnow ∧
    decodeTableWord 8 0x78 = some .uopFlushTx ∧ decodeTableWord 8 0x0F = some .trxSleep ∧
    decodeTableWord 4 0x2 = some .seqLoadAndSend ∧ decodeTableWord 2 1 = some .evtFrameEnd ∧
    decodeTableWord 8 0x2A = none := by decide

/-! ## Small states -/

/-- A ring of 4 places with its storage written. -/
def ring4 (a b c d : Byte) (current length : Half) : Ring :=
  { store := [(0, a), (1, b), (2, c), (3, d)], size := 4, length := length, current := current }

/-- CFG-S, active on 1, the reference chip `LISTENING`, both rings written and empty. -/
def base : State :=
  { State.powerUp { rxSize := 4, txSize := 4, maxPayload := 4, autoflush := 3 } .ref
      PowerUpDraws.named with
    initialized := 1, chip.trxStatus := 0x06
    rx := ring4 1 2 3 4 0 0, tx := ring4 1 2 3 4 0 0 }

/-- `base` while inactive. -/
def inactive : State := { base with initialized := 0 }

/-- `base` with a chip that reacts in its own steps. -/
def anyChip : State := { base with chipModel := .anyChip }

/-- `base` with the sequencer at a step of a routine. -/
def running (l : Label) (x : Locals) : State :=
  { base with status.busy := true, seq := .run { label := l, loc := x } [] }

/-- `base` with a frame in the buffer. -/
def framed (q len : Byte) : State :=
  { base with
    qcap := q, pend.frameEnd := true, en.frameEnd := true
    chip.fb := [(0, len), (1, 0x41), (2, 0x42), (3, 0x43), (4, 0x44), (5, 0xAA), (6, 0xBB)] }

/-- What is read off a next state; none where the machine stops. -/
def after {α : Type} (a : Answer) (f : State → α) : Option α :=
  match a with
  | .next s => some (f s)
  | .fault _ => none
  | .refused _ => none

/-! ## Host commands: the accepted write, and one step of the routine -/

theorem test_init_starts :
    after (exec (.init 3) inactive) (fun t => (t.status.busy, t.seq)) =
      some (true, .run { label := .init .S1, loc := { a8 := 3 } } []) := by decide
/-- S8, FSM4: 17 clamps to channel 1, physical 11. -/
theorem test_init_clamps :
    (clampChannel 1, clampChannel 16, clampChannel 0, clampChannel 17, clampChannel 255) =
      (1, 16, 1, 1, 1) ∧ physicalChannel 1 = 11 ∧ physicalChannel 16 = 26 := by decide
/-- FSM9 -/
theorem test_init_active :
    after (step (running (.init .S1) { a8 := 7 }))
      (fun t => (t.status.word, t.seq, t.initialized)) = some (0x40, .idle, 1) := by decide
/-- FSM10: the activity is cleared first. -/
theorem test_terminate_clears :
    after (step { running (.terminate .S2) {} with rxOverflow := 5, txIdle := true })
      (fun t => (t.initialized, t.rxOverflow, t.txIdle)) = some (0, 0, false) := by decide
/-- FSM11 -/
theorem test_terminate_inactive :
    after (step { running (.terminate .S1) {} with initialized := 0, result := 9 })
      (fun t => (t.result, t.status.word)) = some (0, 0) := by decide
/-- FSM12 -/
theorem test_isactive :
    after (step { running (.isActive .S1) {} with initialized := 16 }) State.result = some 16 := by
  decide
/-- API2 -/
theorem test_available :
    after (step { running (.available .S2) {} with rx := ring4 1 2 3 4 1 3 }) State.result = some 3 := by
  decide
/-- API1 -/
theorem test_available_inactive :
    after (step { running (.available .S1) {} with initialized := 0 }) State.result =
      some 0xFFFFFFFF := by decide
/-- API4 -/
theorem test_getbyte :
    after (step { running (.getByte .S2) {} with rx := ring4 0xFF 2 3 4 0 1 })
      (fun t => (t.result, t.rx.length)) = some (0xFF, 0) := by decide
/-- API3 -/
theorem test_getbyte_empty :
    after (step (running (.getByte .S2) {})) State.result = some 0xFFFFFFFF := by decide
/-- API8 -/
theorem test_getbuffer_range :
    after (step (running (.getBuffer .S2) { a16 := 3, a32 := 0xFFFFFFFE }))
      (fun t => (t.status.word, t.seq)) = some (0x08, .idle) := by decide
/-- API7: the last byte of the address space may be written. -/
theorem test_getbuffer_top :
    after (step (running (.getBuffer .S3) { a16 := 2, a32 := 0xFFFFFFFE, i := 1 })) State.hostMem =
      some [(4294967295, 0)] := by decide
/-- API10 -/
theorem test_flushrx :
    after (step { running (.flushRx .S2) {} with rx := ring4 1 2 3 4 1 4 })
      (fun t => (t.rx.length, t.rx.current)) = some (0, 1) := by decide
/-- API12 -/
theorem test_ovfcount :
    after (step { running (.ovfCount .S1) {} with rxOverflow := 7 })
      (fun t => (t.result, t.rxOverflow)) = some (7, 7) := by decide
/-- API15: the byte is lost, the result is -1. -/
theorem test_putbyte_full :
    after (step (running (.putByte .S3) { a8 := 0x63, r := .full })) State.result =
      some 0xFFFFFFFF := by decide
theorem test_putbyte_calls :
    after (step (running (.putByte .S2) { a8 := 0x41 })) (fun t => t.seq.frames.map Frame.label) =
      some [.putOne .S1, .putByte .S3] := by decide
/-- API20 -/
theorem test_putbuffer_range :
    after (step (running (.putBuffer .S2) { a16 := 2, a32 := 0xFFFFFFFF }))
      (fun t => t.status.word) = some 0x08 := by decide
/-- API18: the result is `len`, whatever was dropped. -/
theorem test_putbuffer_result :
    after (step (running (.putBuffer .S3) { a16 := 4, i := 4 })) State.result = some 4 := by decide
/-- API23: no zero in 65536 bytes. -/
theorem test_putstring_strlen :
    after (step { running (.putString .S2) { a32 := 5, n := 65535 } with hostMem := [(65540, 1)] })
      (fun t => t.status.word) = some 0x10 := by decide
/-- API24: the scan leaves the address space. -/
theorem test_putstring_haddr :
    after (step (running (.putString .S2) { a32 := 0xFFFFFFFE, n := 2 })) (fun t => t.status.word) =
      some 0x08 := by decide
/-- API26 -/
theorem test_transmitnow_inactive :
    after (step { running (.transmitNow .S1) {} with initialized := 0 })
      (fun t => (t.result, t.txLog)) = some (0, []) := by decide
theorem test_transmitnow_calls :
    after (step (running (.transmitNow .S2) {})) (fun t => t.seq.frames.map Frame.label) =
      some [.loadAndSend .S1, .transmitNow .S3] := by decide

/-! ## Ring primitives -/

/-- RB1 -/
theorem test_reset_rx :
    after (exec .uopResetRx { base with rx := ring4 5 6 7 8 2 3 }) (fun t => (t.rx, t.tx)) =
      some (ring4 5 6 7 8 0 0, base.tx) := by decide
theorem test_reset_tx :
    after (exec .uopResetTx { base with tx := ring4 5 6 7 8 2 3 }) (fun t => (t.tx, t.rx)) =
      some (ring4 5 6 7 8 0 0, base.rx) := by decide
/-- RB7 -/
theorem test_peek_rx :
    after (exec .uopPeekRx { base with rx := ring4 0x42 0 0 0x41 3 2 }) (fun t => (t.opRes, t.rx)) =
      some (.ok 0x41, ring4 0x42 0 0 0x41 3 2) := by decide
/-- RB8 -/
theorem test_peek_tx_empty :
    after (exec .uopPeekTx { base with tx := ring4 1 2 3 4 1 0 }) State.opRes = some .empty := by decide
/-- RB5 -/
theorem test_pop_rx :
    after (exec .uopPopRx { base with rx := ring4 9 9 9 0x41 3 2 }) (fun t => (t.opRes, t.rx)) =
      some (.ok 0x41, ring4 9 9 9 0x41 0 1) := by decide
/-- RB6 -/
theorem test_pop_tx_empty :
    after (exec .uopPopTx { base with tx := ring4 1 2 3 4 2 0 }) (fun t => (t.opRes, t.tx)) =
      some (.empty, ring4 1 2 3 4 2 0) := by decide
/-- RB13 -/
theorem test_pop_tx_wraps :
    after (exec .uopPopTx { base with tx := ring4 1 2 3 4 3 1 }) (fun t => (t.opRes, t.tx)) =
      some (.ok 4, ring4 1 2 3 4 0 0) := by decide
/-- RB4 -/
theorem test_push_rx :
    after (exec .uopPushRx { base with rx := ring4 1 2 3 4 3 2, opArg := 0x43 })
      (fun t => (t.opRes, t.rx)) = some (.ok 0x43, ring4 1 0x43 3 4 3 3) := by decide
/-- RB3 -/
theorem test_push_tx_full :
    after (exec .uopPushTx { base with tx := ring4 1 2 3 4 1 4, opArg := 0x42 })
      (fun t => (t.opRes, t.tx)) = some (.full, ring4 1 2 3 4 1 4) := by decide
theorem test_push_tx :
    after (exec .uopPushTx { base with opArg := 0xFF }) (fun t => (t.opRes, t.tx)) =
      some (.ok 0xFF, ring4 0xFF 2 3 4 0 1) := by decide
theorem test_pushb_rx :
    after (exec .uopPushbRx { running (.getByte .S2) {} with opArg := 7 })
      (fun t => t.seq.frames.map Frame.label) = some [.pushBlocking .S1, .getByte .S2] := by decide
theorem test_pushb_tx :
    after (exec .uopPushbTx { base with opArg := 7 }) (fun t => (t.seq, t.status.busy)) =
      some (.run { label := .pushBlocking .S1, loc := { b := 7, sel := .tx } } [], true) := by decide
/-- RB10 -/
theorem test_caprem_rx :
    after (exec .uopCapremRx { base with rx := ring4 1 2 3 4 0 1 }) State.opRes = some (.num 3) := by
  decide
theorem test_caprem_tx :
    after (exec .uopCapremTx { base with tx := ring4 1 2 3 4 0 4 }) State.opRes = some (.num 0) := by
  decide
/-- RB11 -/
theorem test_isempty_rx :
    after (exec .uopIsemptyRx { base with rx := ring4 1 2 3 4 2 0 }) State.opRes = some (.num 1) := by
  decide
theorem test_isempty_tx :
    after (exec .uopIsemptyTx { base with tx := ring4 1 2 3 4 2 1 }) State.opRes = some (.num 0) := by
  decide
/-- RB9 -/
theorem test_flush_rx :
    after (exec .uopFlushRx { base with rx := ring4 1 2 3 4 2 3 }) State.rx =
      some (ring4 1 2 3 4 2 0) := by decide
theorem test_flush_tx :
    after (exec .uopFlushTx { base with tx := ring4 1 2 3 4 2 3 }) State.tx =
      some (ring4 1 2 3 4 2 0) := by decide
/-- RB15: the fiftieth attempt is the last. -/
theorem test_push_blocking_gives_up :
    after (step { running (.pushBlocking .S4) { i := 49, b := 1 } with rx := ring4 1 2 3 4 0 4 })
      (fun t => (t.opRes, t.rx)) = some (.full, ring4 1 2 3 4 0 4) := by decide

/-! ## Chip commands -/

/-- FA7: one emission, `pendTXC` set, the frame as it stands in `FB`. -/
theorem test_tx_start :
    after
      (exec .trxTxStart
        { base with
          chip.trxStatus := 0x09, chip.armed := true, en.txComplete := true
          chip.fb := [(0, 3), (1, 0x01), (2, 0x00)] })
      (fun t => (t.txLog, t.pend.txComplete, t.chip.armed, t.chip.grants)) =
      some ([{ len := 3, payload := some [0x01] }], true, false, 0) := by decide
theorem test_tx_start_any_chip :
    after (exec .trxTxStart anyChip) (fun t => (t.chip.trxCmd, t.chip.grants, t.txLog)) =
      some (2, 1, []) := by decide
theorem test_force_idle :
    after (exec .trxForceIdle { base with chip.trxStatus := 0x22 }) (fun t => t.chip.trxStatus) =
      some 0x28 := by decide
theorem test_force_idle_asleep :
    after (exec .trxForceIdle { base with chip.trxStatus := 0x0F }) chipState = some 0x0F := by decide
theorem test_listen :
    after (exec .trxListen { base with chip.trxStatus := 0x09, chip.armed := true })
      (fun t => (chipState t, t.chip.armed)) = some (0x06, false) := by decide
/-- FSM13 -/
theorem test_idle : after (exec .trxIdle base) chipState = some 0x08 := by decide
theorem test_ready :
    after (exec .trxReady base) (fun t => (chipState t, t.chip.armed)) = some (0x09, true) := by decide
/-- FSM10 -/
theorem test_sleep :
    after (exec .trxSleep { base with chip.trxStatus := 0x08 }) chipState = some 0x0F := by decide
theorem test_sleep_listening : after (exec .trxSleep base) chipState = some 0x06 := by decide
/-- FSM1 -/
theorem test_wake :
    after (exec .trxWake { base with chip.trxStatus := 0x0F }) chipState = some 0x08 := by decide
/-- R172: the reset pulse. -/
theorem test_chip_reset :
    after (step { running (.init .S8) {} with chip.trxStatus := 0x02, chip.ctrl := 0x20 })
      (fun t => (chipState t, t.chip.ctrl, t.chip.channel)) = some (0x08, 0, 11) := by decide

/-- R40: the chip-port map, its ends, and what the block may do at each place. -/
theorem test_chip_port_map :
    ChipPort.trxStatus.index = 0x01 ∧ ChipPort.qualityLive.index = 0x07 ∧ (ChipPort.fb 0).index = 0x80 ∧
    (ChipPort.fb 127).index = 0xFF ∧ (ChipPort.reg .pin).index = 0x06 ∧
    chipPortAt 0x00 = some (.reg .trxCmd) ∧ chipPortAt 0x08 = none ∧ chipPortAt 0x7F = none ∧
    chipPortAt 0xFF = some (.fb 127) ∧ chipPortAt 0x100 = none ∧
    ChipPort.trxStatus.blockWrites = false ∧ (ChipPort.reg .trxCmd).blockReads = false := by decide

/-! ## Subroutines -/

theorem test_seq_force_idle :
    after (exec .seqForceIdle (running (.init .S12) {})) (fun t => t.seq.frames.map Frame.label) =
      some [.forceIdle .S1, .init .S12] := by decide
/-- FSM13 -/
theorem test_force_idle_verified :
    after (step { running (.forceIdle .S3) {} with chip.trxStatus := 0x08 })
      (fun t => (t.opRes, t.seq)) = some (.num 1, .idle) := by decide
theorem test_seq_load_and_send :
    after (exec .seqLoadAndSend (running (.transmitNow .S3) {}))
      (fun t => t.seq.frames.map Frame.label) = some [.loadAndSend .S1, .transmitNow .S3] := by decide
/-- FA3: the drain stops at `MAX_PAYLOAD` - 1. -/
theorem test_load_and_send_cap :
    after (step { running (.loadAndSend .S4) { n := 3 } with tx := ring4 1 2 3 4 3 1 })
      (fun t => (t.tx.length, t.seq.frames.map Frame.label)) = some (1, [.loadAndSend .S6]) := by decide
/-- API14: the byte that reaches the threshold starts a frame. -/
theorem test_put_one_threshold :
    after (step { running (.putOne .S1) { b := 3 } with tx := ring4 1 2 9 9 0 2 })
      (fun t => (t.tx, t.seq.frames.map Frame.label)) =
      some (ring4 1 2 3 9 0 3, [.putOne .S2]) := by decide
theorem test_seq_put_one :
    after (exec .seqPutOne { running (.putByte .S3) {} with opArg := 5 })
      (fun t => t.seq.frames.map fun f => (f.label, f.loc.b)) =
      some [(.putOne .S1, 5), (.putByte .S3, 0)] := by decide

/-- FSM7: the wake of the third escalation lands, and the last verification finds `IDLE`. -/
theorem test_force_idle_wakes :
    after (andThen (step { running (.forceIdle .S7) {} with chip.trxStatus := 0x0F })
      (steps 2)) (fun t => (t.opRes, chipState t)) = some (.num 1, 0x08) := by decide
/-- log 22: issued over a running PUT_ONE, the result of PUSH_BLOCKING goes to the local `r` below. -/
theorem test_pushb_result :
    after (step { base with
        status.busy := true, tx := ring4 1 2 3 4 0 3
        seq := .run { label := .pushBlocking .S2, loc := { b := 7, sel := .tx } }
          [{ label := .putOne .S3, loc := { r := .full } }] })
      (fun t => (t.opRes, t.seq.frames.map fun f => f.loc.r)) = some (.none, [.ok 7]) := by decide

/-! ## Events -/

/-- EV1, the chip `LISTENING`. -/
theorem test_frame_start :
    after (exec .evtFrameStart { base with pend.frameStart := true, chip.qualityLive := some 0x9C })
      (fun t => (t.qcap, t.pend.frameStart)) = some (0x9C, false) := by decide
/-- EV2 -/
theorem test_frame_end :
    after (exec .evtFrameEnd (framed 0x9C 5)) (fun t => (t.rx, t.rxOverflow, t.pend.frameEnd)) =
      some (ring4 0x41 0x42 0x43 4 0 3, 0, false) := by decide
/-- EV3: the third byte finds the ring full. -/
theorem test_frame_end_overflow :
    after (exec .evtFrameEnd { framed 0x9C 5 with rx := ring4 7 8 0 0 0 2 })
      (fun t => (t.rx, t.rxOverflow)) = some (ring4 7 8 0x41 0x42 0 4, 1) := by decide
/-- EV9 -/
theorem test_tx_complete :
    after (exec .evtTxComplete { base with pend.txComplete := true, txIdle := true })
      (fun t => (t.pend.txComplete, t.txIdle)) = some (false, true) := by decide
/-- EV10: onFrameStart first. -/
theorem test_priority :
    after (step { framed 0x80 5 with pend.frameStart := true, chip.qualityLive := some 0x9C })
      (fun t => (t.qcap, t.pend.frameStart, t.pend.frameEnd)) = some (0x9C, false, true) := by decide
/-- EV13: clearing the enable clears the latch. -/
theorem test_enable_clears_latch :
    (chipWrite .evtEn 0x00 (framed 0x80 5)).pend.frameEnd = false := by decide
/-- EV16: no frame starts while the chip does not report `LISTENING`. -/
theorem test_air_not_listening :
    airStep (.frameStart 0x9C) { base with chip.trxStatus := 0x09 } =
      { base with chip.trxStatus := 0x09 } := by decide

/-! ## The host port -/

/-- DEC1, DEC8: the machine as it is after reset, one host turn. -/
theorem test_illegal_opcode :
    after (step (State.reset.withFetchWord 32 0x00000005)) (fun t => (t.status.word, t.seq)) =
      some (0x02, .idle) := by decide
/-- DEC3 -/
theorem test_busy_write :
    after (step { running (.getByte .S2) {} with agenda := [.host (.write 4 0 0x10)] })
      (fun t => (t.status.word, t.seq.frames.map Frame.label)) = some (0x05, [.getByte .S2]) := by decide
/-- DEC7 -/
theorem test_narrow_write :
    after (hostStep (.write 1 1 0xFF) base) (fun t => (t.refused, t.status.word)) = some (true, 0) := by
  decide
/-- DEC9, the chip `LISTENING`. -/
theorem test_quality :
    after (hostStep (.read 4 0x10) { base with chip.qualityLive := some 0x9C }) State.busData =
      some 0x9C := by decide

/-! ## Witnesses: a state and operands that meet the hypotheses of each obligation, clause by clause -/

theorem witness_DecodeEncodeRoundTrip :
    Instr.wellFormed (.init 255) = true ∧ Instr.wellFormed (.putbuffer 0) = true := by decide

theorem witness_DecodedCodeReencodes :
    decode .hcmd 0xABCD0011 = .ok .getbyte ∧ decode .uop 0x78 = .ok .uopFlushTx ∧
    Format.uop ≠ .hcmd := by decide

theorem witness_UnusedFieldsAreIgnored :
    ((0x11 : Byte) ≠ 0x01 ∧ (0x11 : Byte) ≠ 0x20) ∧ (0x20 : Byte) ≠ 0x12 ∧ (0x20 : Byte) ≠ 0x21 := by
  decide

theorem witness_StepRunsDecodedInstruction :
    base.legal = true ∧
    ({ base with agenda := [.host (.write 4 0x00 0x301)] } : State).agenda =
      .host (.write 4 0x00 0x301) :: [] ∧ decode .hcmd 0x301 = .ok (.init 3) ∧
    ({ base with agenda := [.issue .sub 3] } : State).agenda = .issue .sub 3 :: [] ∧
    decode .sub 3 = .ok .seqPutOne ∧
    ({ framed 0x80 5 with agenda := [.block] } : State).agenda = .block :: [] ∧
    (framed 0x80 5).agenda = [] ∧ pendingVector (framed 0x80 5).pend = some 1 ∧
    decode .evt 1 = .ok .evtFrameEnd := by decide

theorem witness_PowerUpValues :
    Params.legal { rxSize := 1, txSize := 65535, maxPayload := 2, autoflush := 65535 } = true := by decide

theorem witness_IllegalParametersAreRefused :
    ¬(1 ≤ 1 ∧ 1 ≤ 65535 ∧ 1 ≤ 1 ∧ 1 ≤ 65535 ∧ 2 ≤ 128 ∧ 128 ≤ 127 ∧ 1 ≤ 1 ∧ 1 ≤ 65535) ∧
    ({ base with rx.size := 0 } : State).rx.size = 0 ∧ ({ base with tx.size := 0 } : State).tx.size = 0 ∧
    ({ base with maxPayload := 1 } : State).maxPayload < 2 ∧
    127 < ({ base with maxPayload := 128 } : State).maxPayload ∧
    ({ base with autoflush := 0 } : State).autoflush < 1 ∧
    65535 < ({ base with autoflush := 65536 } : State).autoflush := by decide

theorem witness_HostRegisterMap :
    (chipState base = 0x06 ∧
      ({ base with chip.qualityLive := some 0x9C } : State).chip.qualityLive = some 0x9C) ∧
    chipState State.reset ≠ 0x06 ∧ base.chip.qualityLive = none ∧ 7 ≤ 7 ∧
    0x14 % 4 = 0 ∧ 0x10 < 0x14 := by decide

theorem witness_MisalignedHostAccessIsRefused : (1 : Nat) ≠ 4 ∧ (2 : Nat) % 4 ≠ 0 := by decide

/-- The ends of the ranges of unassigned opcodes, and a step after the fault. -/
theorem witness_IllegalOpcodeSetsIll :
    base.status.busy = false ∧ (opcField 0x00).toNat = 0x00 ∧ 0x04 ≤ (opcField 0x04).toNat ∧
    (opcField 0x0F).toNat ≤ 0x0F ∧ 0x15 ≤ (opcField 0x15).toNat ∧ (opcField 0x1F).toNat ≤ 0x1F ∧
    0x24 ≤ (opcField 0x24).toNat ∧
    ∃ t, step { base with status.ill := true } = .next t := by
  exact ⟨by decide, by decide, by decide, by decide, by decide, by decide, by decide, _, rfl⟩

theorem witness_BusyCommandWriteIsLost :
    (running (.getByte .S2) {}).status.busy = true ∧ Instr.format .available = .hcmd ∧
    ∃ t, step { base with status.ovr := true } = .next t := ⟨by decide, by decide, _, rfl⟩

theorem witness_AcceptedCommandStartsItsRoutine : base.status.busy = false := by decide

theorem witness_ReportingCommandsReturnTheirRegister :
    (base.undisturbed = true ∧ base.status.busy = false ∧ base.initialized ≠ 0) ∧
    inactive.undisturbed = true ∧ inactive.status.busy = false ∧ inactive.initialized = 0 := by decide

theorem witness_GetbytePopsTheOldestByte :
    (base.undisturbed = true ∧ base.status.busy = false ∧ base.initialized ≠ 0 ∧ base.rx.length = 0) ∧
    inactive.initialized = 0 ∧
    let s := { base with rx := ring4 1 2 3 4 3 1 }
    s.undisturbed = true ∧ s.rx.length ≠ 0 ∧ Memory.read s.rx.store s.rx.current.toNat = some 4 := by
  decide

theorem witness_FlushrxDiscardsTheReceivedBytes :
    (base.undisturbed = true ∧ base.status.busy = false ∧ base.initialized ≠ 0) ∧
    inactive.undisturbed = true ∧ inactive.initialized = 0 := by decide

/-- The range ends at the top of the address space; the ring wraps. -/
theorem witness_GetbufferCopiesTheReceivedBytes :
    let s := { base with rx := ring4 1 2 3 4 3 3, addr := 0xFFFFFFFE }
    s.undisturbed = true ∧ s.status.busy = false ∧ s.initialized ≠ 0 ∧ s.rx.wf = true ∧
    s.rx.written = true ∧ s.addr.toNat + (2 : Half).toNat ≤ 4294967296 := by decide

theorem witness_CommandsRaiseTheirFaults :
    let s := { base with addr := 0xFFFFFFFF }
    s.undisturbed = true ∧ s.status.busy = false ∧ s.initialized ≠ 0 ∧ 0 < (2 : Half).toNat ∧
    s.addr.toNat + (2 : Half).toNat - 1 > 4294967295 := by decide

theorem witness_PutbyteQueuesItsByte :
    (let s := { base with tx := ring4 1 2 3 4 3 1 }
     s.undisturbed = true ∧ s.status.busy = false ∧ s.initialized ≠ 0 ∧
     s.tx.length.toNat < s.tx.size.toNat ∧ s.tx.length.toNat + 1 < s.autoflush) ∧
    let s := { base with tx := ring4 1 2 3 4 3 4, autoflush := 5 }
    s.undisturbed = true ∧ s.status.busy = false ∧ s.initialized ≠ 0 ∧
    s.tx.size.toNat ≤ s.tx.length.toNat ∧ s.tx.length.toNat < s.autoflush := by decide

/-- LOAD_AND_SEND with a caller and without one, over a full ring that wraps, in each chip state the
statement names, on either chip. -/
theorem witness_LoadAndSendEmitsTheStagedFrame :
    (let s := { base with
       tx := ring4 1 2 3 4 2 4
       seq := .run loadAndSendFrame [{ label := .transmitNow .S3, loc := {} }] }
     s.undisturbed = true ∧
     s.seq = .run loadAndSendFrame [{ label := .transmitNow .S3, loc := {} }] ∧ s.tx.wf = true ∧
     s.tx.contents.take (s.maxPayload - 1) = [3, 4, 1].map some ∧
     s.chipModel = .ref ∧ chipState s = 0x06 ∧ chipState { s with chip.trxStatus := 0x08 } = 0x08 ∧
     chipState { s with chip.trxStatus := 0x09 } = 0x09) ∧
    let s := { anyChip with seq := .run loadAndSendFrame [], chip.trxStatus := 0xE9 }
    s.undisturbed = true ∧ s.seq = .run loadAndSendFrame [] ∧ s.tx.wf = true ∧
    s.tx.contents.take (s.maxPayload - 1) = [].map some ∧ s.chipModel = .anyChip ∧
    chipState s = 0x09 := by decide

/-- The longest frames: 125 bytes (configuration CFG-D, FA4), and 126, which the chip cannot send. -/
theorem witness_LoadAndSend_longest :
    let bytes (n : Nat) : List Byte := (List.range n).map (BitVec.ofNat 8)
    let s : State := { State.reset with
      initialized := 1, chip.trxStatus := 0x06, seq := .run loadAndSendFrame []
      tx := { store := (List.range 128).map fun i => (i, BitVec.ofNat 8 i)
              size := 128, length := 128, current := 0 } }
    s.undisturbed = true ∧ s.tx.wf = true ∧
    s.tx.contents.take (s.maxPayload - 1) = (bytes 125).map some ∧
    { s with maxPayload := 127 }.undisturbed = true ∧
    s.tx.contents.take (127 - 1) = (bytes 126).map some := by
  decide +kernel

theorem witness_TransmitnowSendsOneFrame :
    inactive.initialized = 0 ∧
    (base.undisturbed = true ∧ base.status.busy = false ∧ base.initialized ≠ 0 ∧
      base.chipModel = .ref ∧ chipState base = 0x06 ∧ base.tx.wf = true ∧
      base.tx.contents.take (base.maxPayload - 1) = [].map some) ∧
    let s := { base with tx := ring4 1 2 3 4 3 2 }
    s.undisturbed = true ∧ s.tx.wf = true ∧
    s.tx.contents.take (s.maxPayload - 1) = [4, 1].map some := by decide

/-- A byte that fits the frame, and one that does not. -/
theorem witness_PutbyteAtTheThresholdSendsAFrame :
    (let s := { base with tx := ring4 1 2 3 4 3 2 }
     s.undisturbed = true ∧ s.status.busy = false ∧ s.initialized ≠ 0 ∧ s.chipModel = .ref ∧
     chipState s = 0x06 ∧ s.tx.wf = true ∧ s.tx.length.toNat < s.tx.size.toNat ∧
     s.autoflush ≤ s.tx.length.toNat + 1 ∧
     (s.tx.contents ++ [some 9]).take (s.maxPayload - 1) = [4, 1, 9].map some ∧
     s.tx.length.toNat + 1 ≤ s.maxPayload - 1) ∧
    let s := { base with tx := ring4 1 2 3 4 3 3 }
    s.undisturbed = true ∧ s.tx.wf = true ∧ s.tx.length.toNat < s.tx.size.toNat ∧
    s.autoflush ≤ s.tx.length.toNat + 1 ∧
    (s.tx.contents ++ [some 9]).take (s.maxPayload - 1) = [4, 1, 2].map some := by decide

/-- Two bytes at the top of the address space; and a ring the bytes do not fit. -/
theorem witness_PutbufferQueuesTheBytes :
    (let s := { base with addr := 0xFFFFFFFE }
     s.undisturbed = true ∧ s.status.busy = false ∧ s.initialized ≠ 0 ∧ s.tx.wf = true ∧
     s.addr.toNat + (2 : Half).toNat ≤ 4294967296 ∧
     min (s.tx.length.toNat + (2 : Half).toNat) s.tx.size.toNat < s.autoflush) ∧
    let s := { base with autoflush := 5 }
    s.undisturbed = true ∧ s.tx.wf = true ∧
    min (s.tx.length.toNat + (65535 : Half).toNat) s.tx.size.toNat < s.autoflush := by decide

theorem witness_PutbufferLosesNoByte :
    let s := { base with tx := ring4 1 2 3 4 3 2, addr := 0xFFFFFFF9 }
    s.undisturbed = true ∧ s.status.busy = false ∧ s.initialized ≠ 0 ∧ s.chipModel = .ref ∧
    chipState s = 0x06 ∧ s.tx.wf = true ∧ s.tx.written = true ∧
    s.addr.toNat + (7 : Half).toNat ≤ 4294967296 ∧ s.autoflush ≤ s.tx.size.toNat ∧
    s.tx.length.toNat < s.autoflush := by decide

/-- "a" before a zero; the empty string at the last address; and two bytes that make an auto-flush fall
due (P5). -/
theorem witness_PutstringQueuesAndSends :
    (let s := { base with addr := 16, hostMem := [(16, 0x61), (17, 0x00)] }
     s.undisturbed = true ∧ s.status.busy = false ∧ s.initialized ≠ 0 ∧ s.chipModel = .ref ∧
     chipState s = 0x06 ∧ s.tx.wf = true ∧ s.addr.toNat + 1 ≤ 4294967295 ∧
     hostByteAt s (s.addr.toNat + 1) = 0 ∧
     (∀ j, j < 1 → hostByteAt s (s.addr.toNat + j) ≠ 0) ∧
     min (s.tx.length.toNat + 1) s.tx.size.toNat < s.autoflush ∧
     ((s.tx.contents ++ (List.range 1).map fun j => some (hostByteAt s (s.addr.toNat + j))).take
       s.tx.size.toNat).take (s.maxPayload - 1) = [0x61].map some) ∧
    (let s := { base with addr := 0xFFFFFFFF, hostMem := [(4294967295, 0x00)] }
     s.undisturbed = true ∧ s.addr.toNat + 0 ≤ 4294967295 ∧ hostByteAt s (s.addr.toNat + 0) = 0 ∧
     ((s.tx.contents ++ (List.range 0).map fun j => some (hostByteAt s (s.addr.toNat + j))).take
       s.tx.size.toNat).take (s.maxPayload - 1) = [].map some) ∧
    let s := { base with
      tx := ring4 4 2 3 4 0 1, addr := 0x3000, hostMem := [(12288, 0x61), (12289, 0x62), (12290, 0x00)] }
    s.undisturbed = true ∧ s.status.busy = false ∧ s.initialized ≠ 0 ∧ s.chipModel = .ref ∧
    chipState s = 0x06 ∧ s.tx.wf = true ∧ s.addr.toNat + 2 ≤ 4294967295 ∧
    hostByteAt s (s.addr.toNat + 2) = 0 ∧ (∀ j, j < 2 → hostByteAt s (s.addr.toNat + j) ≠ 0) ∧
    s.tx.written = true ∧ s.autoflush ≤ s.tx.size.toNat ∧ s.tx.length.toNat < s.autoflush := by decide

/-- A run of non-zero bytes from address `k` up. -/
theorem read_run (n k a : Nat) (h1 : k ≤ a) (h2 : a < k + n) :
    Memory.read ((List.range n).map fun i => (k + i, (1 : Byte))) a = some 1 := by
  induction n generalizing k with
  | zero => omega
  | succ n ih =>
    rw [List.range_succ_eq_map]
    simp only [List.map_cons, List.map_map, Memory.read]
    split
    · rfl
    · rename_i h3
      have h4 := ih (k + 1) (by omega) (by omega)
      have h5 : ((fun i => (k + i, (1 : Byte))) ∘ Nat.succ) = fun i => (k + 1 + i, (1 : Byte)) := by
        funext i
        simp only [Function.comp, Nat.succ_eq_add_one, Prod.mk.injEq, and_true]
        omega
      rw [h5]
      exact h4

/-- `base` with `n` non-zero bytes in host memory from address `k` up, and `ADDR` at `a`. -/
def withRun (n k : Nat) (a : Word) : State :=
  { base with addr := a, hostMem := (List.range n).map fun i => (k + i, (1 : Byte)) }

theorem withRun_ne_zero (n k a : Nat) (w : Word) (h1 : k ≤ a) (h2 : a < k + n) :
    hostByteAt (withRun n k w) a ≠ 0 := by
  have h3 : hostByteAt (withRun n k w) a = (some 1).getD (Config.hostByte a) :=
    congrArg (fun c => Option.getD c (Config.hostByte a)) (read_run n k a h1 h2)
  rw [h3]
  exact (by decide : (1 : Byte) ≠ 0)

theorem withRun_ready (n k : Nat) (w : Word) :
    (withRun n k w).undisturbed = true ∧ (withRun n k w).status.busy = false ∧
      (withRun n k w).initialized ≠ 0 ∧ (withRun n k w).addr = w :=
  ⟨rfl, rfl, (by decide : (1 : BitVec 5) ≠ 0), rfl⟩

/-- 65536 non-zero bytes, the last at the last address (API23); and one byte fewer from `ADDR` up. -/
theorem witness_PutstringScanFaults :
    (∃ s : State, (s.undisturbed = true ∧ s.status.busy = false ∧ s.initialized ≠ 0) ∧
      (∀ j, j ≤ 65535 → hostByteAt s (s.addr.toNat + j) ≠ 0) ∧
      s.addr.toNat + 65535 ≤ 4294967295) ∧
    ∃ s : State, (s.undisturbed = true ∧ s.status.busy = false ∧ s.initialized ≠ 0) ∧
      (∀ a, s.addr.toNat ≤ a → a ≤ 4294967295 → hostByteAt s a ≠ 0) ∧
      4294967295 < s.addr.toNat + 65535 := by
  have h1 : (0xFFFF0000 : Word).toNat = 4294901760 := by decide
  have h2 : (0xFFFF0001 : Word).toNat = 4294901761 := by decide
  constructor
  · obtain ⟨a, b, c, d⟩ := withRun_ready 65536 4294901760 0xFFFF0000
    refine ⟨_, ⟨a, b, c⟩, ?_, ?_⟩ <;> rw [d, h1]
    intro j hj
    exact withRun_ne_zero _ _ _ _ (by omega) (by omega)
  · obtain ⟨a, b, c, d⟩ := withRun_ready 65535 4294901761 0xFFFF0001
    refine ⟨_, ⟨a, b, c⟩, ?_, ?_⟩ <;> rw [d, h2]
    · intro j hj hk
      exact withRun_ne_zero _ _ _ _ (by omega) (by omega)
    · omega

theorem witness_InitActivatesOnTheReferenceChip :
    (inactive.undisturbed = true ∧ inactive.status.busy = false ∧ inactive.initialized = 0 ∧
      inactive.chipModel = .ref ∧ chipState inactive ≠ 0x1F) ∧
    State.reset.undisturbed = true ∧ chipState State.reset = 0x0F := by decide

theorem witness_InitAbortsWhereIdleIsNeverReported :
    let s := { anyChip with initialized := 0 }
    s.undisturbed = true ∧ s.status.busy = false ∧ s.initialized = 0 ∧ s.chipModel = .anyChip ∧
    chipState s ≠ 0x08 ∧ chipState s ≠ 0x1F := by decide

theorem witness_TerminateDeactivates :
    (base.undisturbed = true ∧ base.status.busy = false ∧ base.initialized ≠ 0 ∧
      base.chipModel = .ref) ∧
    (anyChip.undisturbed = true ∧ anyChip.initialized ≠ 0) ∧ inactive.initialized = 0 := by decide

theorem witness_InactiveCommandsHaveNoEffect :
    inactive.undisturbed = true ∧ inactive.status.busy = false ∧ inactive.initialized = 0 := by decide

/-- Either chip, with `IDLE` reported and not, and `ASLEEP`; and a status a chip's step may set. -/
theorem witness_ForceIdleEscalates :
    (let s := { anyChip with seq := .run forceIdleFrame [{ label := .terminate .S4, loc := {} }] }
     s.undisturbed = true ∧ s.chipModel = .anyChip ∧
     s.seq = .run forceIdleFrame ({ label := .terminate .S4, loc := {} } :: []) ∧ chipState s ≠ 0x08 ∧
     chipState { s with chip.trxStatus := 0x08 } = 0x08 ∧
     (0xE8 : Byte).extractLsb' 0 5 = (0x08 : BitVec 5)) ∧
    let s := { base with seq := .run forceIdleFrame [{ label := .terminate .S4, loc := {} }] }
    s.undisturbed = true ∧ s.chipModel = .ref ∧ chipState s ≠ 0x0F ∧
    chipState { s with chip.trxStatus := 0x0F } = 0x0F := by decide

theorem witness_PushBlockingRetriesFiftyTimes :
    (let s := { base with
       tx := ring4 1 2 3 4 1 4
       seq := .run (pushBlockingFrame .tx 9) [{ label := .putByte .S3, loc := {} }] }
     s.undisturbed = true ∧
     s.seq = .run (pushBlockingFrame .tx 9) ({ label := .putByte .S3, loc := {} } :: []) ∧
     (s.ring .tx).length = (s.ring .tx).size) ∧
    let s := { base with
      rx := ring4 1 2 3 4 1 3
      seq := .run (pushBlockingFrame .rx 9) [{ label := .putByte .S3, loc := {} }] }
    s.undisturbed = true ∧ (s.ring .rx).length.toNat < (s.ring .rx).size.toNat := by decide

theorem witness_AwaitHoldsTheSequencer :
    (let s := { running (.init .S5) {} with chip.trxStatus := 0x1F }
     s.undisturbed = true ∧ s.seq = .run { label := .init .S5, loc := {} } [] ∧ chipState s = 0x1F) ∧
    let s := running (.loadAndSend .S2) {}
    s.undisturbed = true ∧ s.seq = .run { label := .loadAndSend .S2, loc := {} } [] ∧
    chipState s ≠ 0x09 := by decide

/-- An empty ring, a ring whose oldest byte was written, and one whose oldest byte was not. -/
theorem witness_ReadingPrimitives :
    (base.rx.length = 0 ∧ base.tx.length = 0) ∧
    (let s := { base with rx := ring4 1 2 3 4 3 4, tx := ring4 1 2 3 4 0 1 }
     s.rx.length ≠ 0 ∧ Memory.read s.rx.store s.rx.current.toNat = some 4 ∧
     s.tx.length ≠ 0 ∧ Memory.read s.tx.store s.tx.current.toNat = some 1) ∧
    let s := { base with rx := { store := [], size := 4, length := 1, current := 3 }
                         tx := { store := [], size := 4, length := 1, current := 0 } }
    s.rx.length ≠ 0 ∧ Memory.read s.rx.store s.rx.current.toNat = none ∧
    s.tx.length ≠ 0 ∧ Memory.read s.tx.store s.tx.current.toNat = none := by decide

theorem witness_PopPrimitive :
    (base.rx.length = 0 ∧ base.tx.length = 0) ∧
    (let s := { base with rx := ring4 1 2 3 4 3 1, tx := ring4 1 2 3 4 2 4 }
     s.rx.length ≠ 0 ∧ Memory.read s.rx.store s.rx.current.toNat = some 4 ∧
     s.tx.length ≠ 0 ∧ Memory.read s.tx.store s.tx.current.toNat = some 3) ∧
    let s := { base with rx := { store := [], size := 4, length := 1, current := 3 }
                         tx := { store := [], size := 4, length := 1, current := 0 } }
    s.rx.length ≠ 0 ∧ Memory.read s.rx.store s.rx.current.toNat = none ∧
    s.tx.length ≠ 0 ∧ Memory.read s.tx.store s.tx.current.toNat = none := by decide

theorem witness_PushPrimitive :
    (let s := { base with rx := ring4 1 2 3 4 3 3, tx := ring4 1 2 3 4 0 3 }
     s.rx.length.toNat < s.rx.size.toNat ∧ s.tx.length.toNat < s.tx.size.toNat) ∧
    let s := { base with rx := ring4 1 2 3 4 3 4, tx := ring4 1 2 3 4 0 4 }
    s.rx.size.toNat ≤ s.rx.length.toNat ∧ s.tx.size.toNat ≤ s.tx.length.toNat := by decide

theorem witness_PrimitivesActOnTheContents :
    ((ring4 1 2 3 4 3 3).wf = true ∧
      (ring4 1 2 3 4 3 3).length.toNat < (ring4 1 2 3 4 3 3).size.toNat) ∧
    (ring4 1 2 3 4 3 4).wf = true ∧ (ring4 1 2 3 4 3 4).length ≠ 0 := by decide

theorem witness_RingIsFirstInFirstOut :
    let s := { base with rx := ring4 1 2 3 4 2 0 }
    (s.ring .rx).wf = true ∧ (s.ring .rx).length = 0 ∧
    ([0x0A, 0x0B, 0x0C, 0x0D] : List Byte).length = (s.ring .rx).size.toNat := by decide

theorem witness_ChipCommandsOnAnyChip : anyChip.chipModel = .anyChip := by decide

theorem witness_ChipCommandsOnTheReferenceChip : base.chipModel = .ref := by decide

/-- Lengths 2, 127, 1 and 128, and a chip that is not armed. -/
theorem witness_TxStartOnTheReferenceChip :
    let s := { base with chip.trxStatus := 0x09, chip.armed := true }
    s.chipModel = .ref ∧ chipState s = 0x09 ∧ s.chip.armed = true ∧
    Memory.read [(0, (2 : Byte))] 0 = some 2 ∧ 2 ≤ (2 : Byte).toNat ∧
    ([] : List Byte).length = (2 : Byte).toNat - 2 ∧
    (let fb : Memory := (0, 127) :: (List.range 127).map fun i => (i + 1, BitVec.ofNat 8 i)
     let bs : List Byte := (List.range 125).map (BitVec.ofNat 8)
     Memory.read fb 0 = some 127 ∧ (127 : Byte).toNat ≤ 127 ∧ bs.length = (127 : Byte).toNat - 2 ∧
     ∀ j, (h : j < bs.length) → Memory.read fb (1 + j) = some bs[j]) ∧
    (1 : Byte).toNat < 2 ∧ 127 < (128 : Byte).toNat ∧
    base.chip.armed = false ∧ chipState base ≠ 0x09 := by decide +kernel

/-- Lengths 128, 1, 2 and 127. -/
theorem witness_ChipStepsAsAdmitted :
    base.chipModel = .ref ∧ anyChip.chipModel = .anyChip ∧ anyChip.chip.grants = 0 ∧
    (let s := { anyChip with chip.grants := 1, chip.fb := [(0, 128)] }
     s.chipModel = .anyChip ∧ 0 < s.chip.grants ∧ Memory.read s.chip.fb 0 = some 128 ∧
     127 < (128 : Byte).toNat) ∧
    (1 : Byte).toNat < 2 ∧ ([] : List Byte).length = (2 : Byte).toNat - 2 ∧
    let s := { anyChip with
      chip.grants := 2, chip.fb := (0, 127) :: (List.range 127).map fun i => (i + 1, BitVec.ofNat 8 i) }
    let bs : List Byte := (List.range 125).map (BitVec.ofNat 8)
    0 < s.chip.grants ∧ Memory.read s.chip.fb 0 = some 127 ∧ (127 : Byte).toNat ≤ 127 ∧
    bs.length = (127 : Byte).toNat - 2 ∧
    ∀ j, (h : j < bs.length) → Memory.read s.chip.fb (1 + j) = some bs[j] := by decide +kernel

theorem witness_FrameStartCapturesTheQuality :
    (let s := { base with chip.qualityLive := some 0x9C }
     chipState s = 0x06 ∧ s.chip.qualityLive = some 0x9C) ∧
    chipState State.reset ≠ 0x06 ∧ base.chip.qualityLive = none := by decide

theorem witness_FrameEndDiscards :
    (framed 0x1C 5).qcap.getLsbD 7 = false ∧
    (framed 0x80 128).qcap.getLsbD 7 = true ∧ Memory.read (framed 0x80 128).chip.fb 0 = some 128 ∧
    127 < (128 : Byte).toNat := by decide

/-- A frame of 5 bytes, and frames of 0 and of 127. -/
theorem witness_FrameEndAcceptsThePayload :
    (let p : Nat → Byte := fun i => if i = 1 then 0x41 else if i = 2 then 0x42 else if i = 3 then 0x43
       else if i = 4 then 0x44 else 0xAA
     let s := framed 0x9C 5
     s.rx.wf = true ∧ s.qcap.getLsbD 7 = true ∧ Memory.read s.chip.fb 0 = some 5 ∧
     (5 : Byte).toNat ≤ 127 ∧
     ∀ i, i < 6 → 1 ≤ i → i ≤ (5 : Byte).toNat → Memory.read s.chip.fb i = some (p i)) ∧
    Memory.read (framed 0x9C 0).chip.fb 0 = some 0 ∧
    (let fb : Memory := (0, 127) :: (List.range 127).map fun i => (i + 1, BitVec.ofNat 8 (i + 1))
     Memory.read fb 0 = some 127 ∧
     ∀ i, i < 128 → 1 ≤ i → i ≤ (127 : Byte).toNat → Memory.read fb i = some (BitVec.ofNat 8 i)) := by
  decide +kernel

theorem witness_HandlersRunByPriority :
    ({ framed 0x80 5 with pend.frameStart := true } : State).pend.frameStart = true ∧
    ((framed 0x80 5).pend.frameStart = false ∧ (framed 0x80 5).pend.frameEnd = true) ∧
    (let s := { base with pend.txComplete := true }
     s.pend.frameStart = false ∧ s.pend.frameEnd = false ∧ s.pend.txComplete = true) ∧
    pendingVector (framed 0x80 5).pend ≠ none ∧ ∃ t, blockStep (framed 0x80 5) = .next t :=
  ⟨by decide, by decide, by decide, by decide, _, rfl⟩

theorem witness_EventsLatchWhereEnabled :
    base.en.get .frameEnd = false ∧ (framed 0x80 5).en.get .frameEnd = true := by decide

/-- Each enabled and each disabled step; frame ends of length 0 and of length 255 with 127 bytes. -/
theorem witness_AirStepsAsEnabled :
    (base.airPhase = .quiet ∧ base.pend.frameEnd = false ∧ chipState base = 0x06) ∧
    (let s := { base with airPhase := .inFrame }
     s.airPhase = .inFrame ∧ ([] : List Byte).length = min (0 : Byte).toNat 127 ∧
     (List.replicate 127 (7 : Byte)).length = min (255 : Byte).toNat 127) ∧
    (framed 0x80 5).pend.frameEnd = true ∧ chipState State.reset ≠ 0x06 := by decide +kernel

/-- A state that holds a frame, bytes in both rings and a routine meets the invariant, and steps. -/
def busyState : State :=
  { framed 0x80 5 with
    rx := ring4 1 2 3 4 3 4, tx := ring4 1 2 3 4 2 1, initialized := 16, hostMem := [(4294967295, 7)]
    status.busy := true
    seq := .run { label := .getBuffer .S6, loc := { a16 := 2, a32 := 0xFFFFFFFE, n := 2, k := 1 } } [] }

theorem busyState_inv : busyState.Inv where
  legal := by decide
  rxWf := by decide
  txWf := by decide
  rxWritten := by decide
  txWritten := by decide
  fbWf := by decide
  hostWf := by decide
  channel := by decide
  latches := by intro e; cases e <;> decide
  busy := by decide
  frames := by decide

theorem busyState_disciplined : busyState.Disciplined where
  shaped := by decide
  activity := by decide

theorem witness_StepKeepsTheInvariant : busyState.Inv ∧ ∃ t, step busyState = .next t :=
  ⟨busyState_inv, _, rfl⟩

theorem witness_PowerUpMeetsTheInvariant :
    Params.legal { rxSize := 65535, txSize := 1, maxPayload := 127, autoflush := 1 } = true := by decide

theorem witness_SoundStatesNeverStop : busyState.Inv ∧ busyState.nextTurnDecodes = true :=
  ⟨busyState_inv, by decide⟩

theorem witness_StepKeepsTheDiscipline :
    busyState.Disciplined ∧ busyState.noIssueNext = true ∧ ∃ t, step busyState = .next t :=
  ⟨busyState_disciplined, by decide, _, rfl⟩

theorem witness_FaultBitsAreSticky :
    ∃ t, step { base with status.rxlen := true, refused := true } = .next t ∧
      ({ base with status.rxlen := true, refused := true } : State).status.has .rxlen = true ∧
      ({ base with status.rxlen := true, refused := true } : State).refused = true :=
  ⟨_, rfl, by decide, by decide⟩

/-- `HADDR`, `STRLEN` and `INITACT`, each raised by a step. -/
theorem witness_CommandFaultsArePrecise :
    (let s := running (.putBuffer .S2) { a16 := 2, a32 := 0xFFFFFFFF }
     s.status.has .haddr = false ∧ after (step s) (fun t => t.status.has .haddr) = some true) ∧
    (let s := { running (.putString .S2) { a32 := 5, n := 65535 } with hostMem := [(65540, 1)] }
     s.status.has .strlen = false ∧ after (step s) (fun t => t.status.has .strlen) = some true) ∧
    (let s := running (.init .S1) {}
     s.status.has .initact = false ∧ after (step s) (fun t => t.status.has .initact) = some true) := by decide

/-- A step that changes each register the statement names. -/
theorem witness_RegistersHaveTheirWriters :
    (let s := { running (.init .S18) { ch := 16 } with initialized := 0 }
     s.noIssueNext = true ∧
       after (step s) (fun t => decide (t.initialized ≠ s.initialized)) = some true) ∧
    (let s := running (.terminate .S2) {}
     after (step s) (fun t => decide (t.initialized ≠ s.initialized)) = some true) ∧
    (let s := { running (.flushRx .S3) {} with rxOverflow := 7 }
     after (step s) (fun t => decide (t.rxOverflow ≠ s.rxOverflow)) = some true) ∧
    (let s := { framed 0x80 3 with rx := ring4 1 2 3 4 0 4, rxOverflow := 0xFFFF }
     after (step s) (fun t => decide (t.rxOverflow ≠ s.rxOverflow)) = some true) ∧
    (let s := { base with agenda := [.host (.write 4 0x04 5)] }
     after (step s) (fun t => decide (t.addr ≠ s.addr)) = some true) ∧
    (let s := running (.isActive .S1) {}
     after (step s) (fun t => decide (t.result ≠ s.result)) = some true) := by decide

/-- A command that finds the block inactive; INIT's last step; TERMINATE's second. -/
theorem witness_InactivityIsRespected :
    (let s := { running (.getByte .S1) {} with initialized := 0 }
     s.seq.shaped = true ∧ (∀ f ∈ s.seq.frames, f.activityOk s.initialized = true) ∧
     s.noIssueNext = true ∧ s.initialized = 0 ∧ s.runsInit = false ∧ s.seqTurn ≠ none ∧
     ∃ t, step s = .next t) ∧
    (let s := { running (.init .S18) { ch := 3 } with initialized := 0 }
     s.seq.shaped = true ∧ (∀ f ∈ s.seq.frames, f.activityOk s.initialized = true) ∧
     ∃ t, step s = .next t ∧ t.initialized ≠ s.initialized) ∧
    (let s := running (.terminate .S2) {}
     s.seq.shaped = true ∧ (∀ f ∈ s.seq.frames, f.activityOk s.initialized = true) ∧
     ∃ t, step s = .next t ∧ t.initialized ≠ s.initialized) := by
  refine ⟨⟨by decide, by decide, by decide, by decide, by decide, by decide, _, rfl⟩,
    ⟨by decide, by decide, _, rfl, by decide⟩, ⟨by decide, by decide, _, rfl, by decide⟩⟩

/-- The step of `TX_START` on a chip that emits nothing, and the issued command on one that emits. -/
theorem witness_GrantsBoundTheEmissions :
    after (step { running (.loadAndSend .S8) {} with chipModel := .anyChip })
      (fun t => t.chip.grants) = some 1 ∧
    after
      (step
        { base with
          chip.trxStatus := 0x09, chip.armed := true, chip.fb := [(0, 2)]
          agenda := [.issue .trxcmd 0x02] })
      (fun t => t.txLog.length) = some 1 := by decide

end Sys2Proof.Tests
end

/-! Legal parameter sets (00_scope.md R6): what the two legality checks say, that the model is built
for a legal set only, and that only a state with legal parameters has a step (60_exceptions.md R263 (b)). -/

namespace Sys2Proof.Machine

/-- The four ranges of R6; the buffer's `fbSize - 1` is 127. -/
theorem params_legal_iff (p : Params) :
    p.legal = true ↔
      1 ≤ p.rxSize ∧ p.rxSize ≤ 65535 ∧ 1 ≤ p.txSize ∧ p.txSize ≤ 65535 ∧
        2 ≤ p.maxPayload ∧ p.maxPayload ≤ 127 ∧ 1 ≤ p.autoflush ∧ p.autoflush ≤ 65535 := by
  simp only [Params.legal, Bool.and_eq_true, decide_eq_true_eq, and_assoc]
  simp [Config.fbSize]

/-- The same ranges of a state. The ring sizes have 16 bits, so only 0 is left to exclude. -/
theorem state_legal_iff (s : State) :
    s.legal = true ↔
      1 ≤ s.rx.size.toNat ∧ 1 ≤ s.tx.size.toNat ∧
        2 ≤ s.maxPayload ∧ s.maxPayload ≤ 127 ∧ 1 ≤ s.autoflush ∧ s.autoflush ≤ 65535 := by
  simp only [State.legal, Bool.and_eq_true, decide_eq_true_eq, and_assoc]
  simp [Config.fbSize]

/-- Exactly the illegal parameter sets have no state. -/
theorem construct_eq_none_iff (p : Params) (m : ChipModel) (d : PowerUpDraws) :
    State.construct p m d = none ↔ ¬ p.legal = true := by
  simp [State.construct]

/-- A state with illegal parameters is refused, whoever's turn it is. -/
theorem step_of_not_legal {s : State} (h : ¬ s.legal = true) :
    step s = .refused .illegalParameters :=
  if_neg h

/-- A value out of its range makes a state's parameters illegal. -/
theorem not_legal_of_out_of_range {s : State}
    (h : s.rx.size = 0 ∨ s.tx.size = 0 ∨ s.maxPayload < 2 ∨ 127 < s.maxPayload ∨ s.autoflush < 1 ∨
      65535 < s.autoflush) : ¬ s.legal = true := by
  intro hlegal
  obtain ⟨hrx, htx, hpayMin, hpayMax, hflushMin, hflushMax⟩ := (state_legal_iff s).1 hlegal
  rcases h with h | h | h | h | h | h
  · simp [h] at hrx
  · simp [h] at htx
  · omega
  · omega
  · omega
  · omega

/-- Settles O7: the first clause is `construct_eq_none_iff` at the ranges of R6, the second is the refusal
in `step` of a state whose parameters are illegal (log 19). -/
theorem illegalParametersAreRefused : Obligations.IllegalParametersAreRefused := by
  unfold Obligations.IllegalParametersAreRefused
  constructor
  · intro p m d hranges
    rw [construct_eq_none_iff, params_legal_iff]
    exact hranges
  · intro s hrange
    exact step_of_not_legal (not_legal_of_out_of_range hrange)

end Sys2Proof.Machine

/-! The state at power-up (10_state.md R52) and what a host read returns (R34 to R39). -/

namespace Sys2Proof.Machine

/-- A ring size fits the 16 bits of its register (00_scope.md R5, R6). -/
theorem powerUp_size {n : Nat} (h : n ≤ 65535) : (Ring.powerUp n).size.toNat = n := by
  simp [Ring.powerUp]
  omega

/-- Settles O6: a legal parameter set is constructed, and every field of the power-up state is its value of
R52 by definition but the two sizes, which fit 16 bits. -/
theorem powerUpValues : Obligations.PowerUpValues := by
  unfold Obligations.PowerUpValues
  intro p m d hp
  obtain ⟨_, hrx, _, htx, _⟩ := (params_legal_iff p).1 hp
  refine ⟨State.powerUp p m d, if_pos hp, rfl, rfl, rfl, rfl, powerUp_size hrx, powerUp_size htx, rfl, rfl,
    rfl, rfl, rfl, rfl, ?latches, rfl, rfl, rfl, ?status, rfl, rfl, rfl, rfl, rfl, rfl, rfl, rfl,
    rfl, rfl, rfl⟩
  case latches => intro e; cases e <;> exact ⟨rfl, rfl⟩
  case status => simp [State.powerUp, Status.word]

/-- A bit appended at the bottom is bit 0, and moves the others up by one. -/
theorem getLsbD_append_ofBool {w : Nat} (x : BitVec w) (b : Bool) (n : Nat) :
    (x ++ BitVec.ofBool b).getLsbD n = if n = 0 then b else x.getLsbD (n - 1) := by
  cases n with
  | zero => simp only [BitVec.getLsbD_append, BitVec.getLsbD_ofBool]; simp
  | succ n => simp [BitVec.getLsbD_append]

/-- The bits of the `STATUS` word (R38). -/
theorem status_word_bits (st : Status) :
    st.word.getLsbD 0 = st.busy ∧ st.word.getLsbD 1 = st.ill ∧ st.word.getLsbD 2 = st.ovr ∧
    st.word.getLsbD 3 = st.haddr ∧ st.word.getLsbD 4 = st.strlen ∧ st.word.getLsbD 5 = st.rxlen ∧
    st.word.getLsbD 6 = st.initact ∧ ∀ n, 7 ≤ n → st.word.getLsbD n = false := by
  simp only [Status.word, getLsbD_append_ofBool]
  refine ⟨rfl, rfl, rfl, rfl, rfl, rfl, rfl, ?_⟩
  intro n hn
  obtain ⟨k, rfl⟩ := Nat.exists_eq_add_of_le' hn
  simp

/-- A read of `QUALITY_LIVE` gives the byte the register holds while the chip reports `LISTENING` (R37). -/
theorem readQuality_listening {s : State} {q : Byte} (hc : chipState s = stListening)
    (hq : s.chip.qualityLive = some q) : readQuality s = (q, s) := by
  simp [readQuality, hc, hq]

/-- A read of `QUALITY_LIVE` is a draw in any other case (93_implementation_defined.md U8; log 10). -/
theorem readQuality_draw {s : State} (h : chipState s ≠ stListening ∨ s.chip.qualityLive = none) :
    readQuality s = (Config.drawByte s.draws, { s with draws := s.draws + 1 }) := by
  rcases h with h | h <;> simp [readQuality, h, drawn]

/-- No register of the map stands above `QUALITY`, the last one (R34 to R39). -/
theorem hostReg_above {offset : Nat} (h : 0x10 < offset) (v : Word) (s : State) :
    hostReadReg offset s = (0, s) ∧ hostWriteReg offset v s = .next s := by
  constructor
  · unfold hostReadReg
    split
    case h_5 => rfl
    all_goals omega
  · unfold hostWriteReg
    split
    case h_3 => rfl
    all_goals omega

/-- Settles O8, register by register. -/
theorem hostRegisterMap : Obligations.HostRegisterMap := by
  unfold Obligations.HostRegisterMap
  intro s
  refine ⟨rfl, rfl, rfl, ⟨s.status.word, rfl, status_word_bits s.status⟩, ?live, ?draw, fun _ => rfl,
    ?readOnly, ?unmapped⟩
  case live =>
    intro q hc hq
    simp [hostStep, hostAligned, hostReadReg, readQuality_listening hc hq]
  case draw =>
    intro h
    simp [hostStep, hostAligned, hostReadReg, readQuality_draw h]
  case readOnly => rintro v off (rfl | rfl | rfl) <;> rfl
  case unmapped =>
    intro v off hal hoff
    obtain ⟨hread, hwrite⟩ := hostReg_above hoff v s
    simp [hostStep, hostAligned, hal, hread, hwrite]

end Sys2Proof.Machine

/-! The data half of the invariant: rings, memories, channel and latches, and the operations that keep
them. What is left of `State.Inv`, `BUSY` and the frames on the stack, is the control half. -/

namespace Sys2Proof.Machine

/-! ## Rings whose bytes were all written (10_state.md R23 to R25) -/

/-- A sound ring: the ring invariant, and no byte it holds reads as a draw. -/
def Ring.Sound (r : Ring) : Prop := r.wf = true ∧ r.written = true

/-- Every byte a ring holds was written, slot by slot. -/
theorem ring_written_iff (r : Ring) :
    r.written = true ↔ ∀ i < r.length.toNat, (Memory.read r.store (r.slot i)).isSome = true := by
  simp [Ring.written, Ring.contents]

/-- A ring that holds nothing holds no unwritten byte. -/
theorem written_of_length_zero {r : Ring} (h : r.length = 0) : r.written = true := by
  simp [ring_written_iff, h]

/-- The `i`-th byte after a removal is the one after it before. -/
theorem popped_slot {r : Ring} (h : 0 < r.size.toNat) (i : Nat) : r.popped.slot i = r.slot (i + 1) := by
  have hcur := popped_current h
  have hsize : r.popped.size = r.size := rfl
  simp only [Ring.slot, hcur, hsize, Nat.mod_add_mod]
  congr 1
  omega

/-- PUSH keeps a sound ring sound where there is room. -/
theorem Ring.Sound.pushed {r : Ring} (h : r.Sound) (b : Byte) (hl : r.length.toNat < r.size.toNat) :
    (r.pushed b).Sound := by
  obtain ⟨hwf, hwritten⟩ := h
  refine ⟨pushed_wf hwf b hl, (ring_written_iff _).2 fun i hi => ?_⟩
  rw [pushed_length b hl] at hi
  show (Memory.read (Memory.write r.store (r.slot r.length.toNat) b) (r.slot i)).isSome = true
  rw [read_write]
  split
  · rfl
  · rename_i hne
    have hi' : i ≠ r.length.toNat := fun e => hne (by rw [e])
    exact (ring_written_iff r).1 hwritten i (by omega)

/-- POP keeps a sound ring sound. -/
theorem Ring.Sound.popped {r : Ring} (h : r.Sound) : r.popped.Sound := by
  obtain ⟨hwf, hwritten⟩ := h
  obtain ⟨_, hcur, _, _⟩ := (ring_wf_iff r).1 hwf
  refine ⟨popped_wf hwf, (ring_written_iff _).2 fun i hi => ?_⟩
  rw [popped_length] at hi
  rw [popped_slot (by omega)]
  exact (ring_written_iff r).1 hwritten (i + 1) (by omega)

/-- RESET keeps a sound ring sound. -/
theorem Ring.Sound.reset {r : Ring} (h : r.Sound) : ({ r with length := 0, current := 0 } : Ring).Sound :=
  ⟨reset_wf h.1, written_of_length_zero rfl⟩

/-- FLUSH keeps a sound ring sound. -/
theorem Ring.Sound.flush {r : Ring} (h : r.Sound) : ({ r with length := 0 } : Ring).Sound :=
  ⟨flush_wf h.1, written_of_length_zero rfl⟩

/-- An empty ring of a legal size is sound (R52). -/
theorem powerUp_sound {n : Nat} (h1 : 1 ≤ n) (h2 : n ≤ 65535) : (Ring.powerUp n).Sound := by
  refine ⟨(ring_wf_iff _).2 ⟨Nat.zero_le _, ?_, rfl, rfl⟩, written_of_length_zero rfl⟩
  rw [powerUp_size h2]
  exact h1

/-! ## The data half of the invariant -/

/-- No latch is set whose enable is 0 (60_exceptions.md R264, R266). -/
def State.LatchesEnabled (s : State) : Prop := ∀ e, s.pend.get e = true → s.en.get e = true

/-- The frame buffer is in canonical form and ends at `FB[127]`. -/
def State.FbSound (s : State) : Prop :=
  Memory.wf s.chip.fb = true ∧ Memory.below Config.fbSize s.chip.fb = true

/-- Host memory is in canonical form and ends at address 2^32 - 1. -/
def State.HostSound (s : State) : Prop :=
  Memory.wf s.hostMem = true ∧ Memory.below Config.hostSpace s.hostMem = true

/-- The invariant but for the sequencer: what `State.Inv` says of parameters, rings, memories, channel and
latches. -/
structure State.SoundData (s : State) : Prop where
  legal : s.legal = true
  rx : s.rx.Sound
  tx : s.tx.Sound
  fb : s.FbSound
  host : s.HostSound
  channel : s.initialized.toNat ≤ Config.chMax
  latches : s.LatchesEnabled

/-- The invariant of the sequencer: `BUSY` exactly while a routine runs, every frame's locals in bounds. -/
structure State.SoundControl (s : State) : Prop where
  busy : s.status.busy = true ↔ s.seq ≠ .idle
  frames : ∀ f ∈ s.seq.frames, f.wf s.maxPayload = true

/-- The invariant is its two halves. -/
theorem inv_iff (s : State) : s.Inv ↔ s.SoundData ∧ s.SoundControl := by
  constructor
  · intro h
    exact ⟨⟨h.legal, ⟨h.rxWf, h.rxWritten⟩, ⟨h.txWf, h.txWritten⟩, h.fbWf, h.hostWf, h.channel, h.latches⟩,
      ⟨h.busy, h.frames⟩⟩
  · rintro ⟨hd, hc⟩
    exact ⟨hd.legal, hd.rx.1, hd.tx.1, hd.rx.2, hd.tx.2, hd.fb, hd.host, hd.channel, hd.latches, hc.busy,
      hc.frames⟩

/-- The data half reads these fields alone, and of the rings' legality their sizes alone. -/
theorem State.SoundData.of_fields {s t : State} (h : s.SoundData)
    (hpay : t.maxPayload = s.maxPayload) (hflush : t.autoflush = s.autoflush)
    (hrxSize : t.rx.size = s.rx.size) (htxSize : t.tx.size = s.tx.size)
    (hrx : t.rx.Sound) (htx : t.tx.Sound) (hfb : t.FbSound) (hhost : t.HostSound)
    (hinit : t.initialized.toNat ≤ Config.chMax) (hlatches : t.LatchesEnabled) : t.SoundData where
  legal := by
    have hlegal := (state_legal_iff s).1 h.legal
    rw [state_legal_iff, hpay, hflush, hrxSize, htxSize]
    exact hlegal
  rx := hrx
  tx := htx
  fb := hfb
  host := hhost
  channel := hinit
  latches := hlatches

/-- A state that differs in nothing the data half reads keeps it. -/
theorem State.SoundData.congr {s t : State} (h : s.SoundData)
    (e : t.maxPayload = s.maxPayload ∧ t.autoflush = s.autoflush ∧ t.rx = s.rx ∧ t.tx = s.tx ∧
      t.chip.fb = s.chip.fb ∧ t.hostMem = s.hostMem ∧ t.initialized = s.initialized ∧
      t.pend = s.pend ∧ t.en = s.en) : t.SoundData := by
  obtain ⟨hpay, hflush, hrx, htx, hfb, hhost, hinit, hpend, hen⟩ := e
  refine h.of_fields hpay hflush (by rw [hrx]) (by rw [htx]) (by rw [hrx]; exact h.rx)
    (by rw [htx]; exact h.tx) ?_ ?_ (by rw [hinit]; exact h.channel) ?_
  · unfold State.FbSound
    rw [hfb]
    exact h.fb
  · unfold State.HostSound
    rw [hhost]
    exact h.host
  · unfold State.LatchesEnabled
    rw [hpend, hen]
    exact h.latches

/-! ## Control operations write none of the data -/

section Control

variable {s : State} (h : s.SoundData)
include h

theorem soundData_moveTo (l : Label) (x : Locals) (rest : List Frame) : (moveTo l x rest s).SoundData :=
  h.congr (by simp)

theorem soundData_finish (v : Int) : (finish v s).SoundData := h.congr (by simp)

theorem soundData_raiseFault (c : FaultCode) : (raiseFault c s).SoundData := h.congr (by simp)

theorem soundData_callSub (f : Frame) : (callSub f s).SoundData := h.congr (by simp)

theorem soundData_returnSub (v : OpResult) (give : Locals → Locals) (rest : List Frame) :
    (returnSub v give rest s).SoundData := h.congr (by simp)

theorem soundData_acceptCommand (l : Label) (x : Locals) : (acceptCommand l x s).SoundData :=
  h.congr (by simp)

end Control

/-- The result of an issued operation is none of the data. -/
theorem soundData_latch {r : OpResult × State} (h : r.2.SoundData) : (latch r).SoundData :=
  h.congr (by simp)

/-! ## Ring operations -/

/-- A ring primitive that writes a ring (40_ring_buffer.md R120, R122, R123, R127). -/
inductive RingOp (s : State) : State → Prop
  | reset (sel : RingSel) : RingOp s (ringReset sel s)
  | flush (sel : RingSel) : RingOp s (ringFlush sel s)
  | pop (sel : RingSel) : RingOp s (ringPop sel s).2
  | push (sel : RingSel) (b : Byte) : RingOp s (ringPush sel b s).2

/-- A ring primitive writes no field of the block but the rings. -/
theorem RingOp.fields {s t : State} (h : RingOp s t) :
    t.maxPayload = s.maxPayload ∧ t.autoflush = s.autoflush ∧ t.chip.fb = s.chip.fb ∧
      t.hostMem = s.hostMem ∧ t.initialized = s.initialized ∧ t.pend = s.pend ∧ t.en = s.en ∧
      t.rxOverflow = s.rxOverflow ∧ t.txIdle = s.txIdle ∧ t.addr = s.addr ∧ t.result = s.result ∧
      t.status = s.status ∧ t.seq = s.seq := by
  cases h <;> simp

/-- A ring primitive leaves the active channel. -/
theorem RingOp.initialized_eq {s t : State} (h : RingOp s t) : t.initialized = s.initialized := by
  obtain ⟨_, _, _, _, hinit, _⟩ := h.fields
  exact hinit

/-- Replacing a ring by a sound one of its size keeps the data. -/
theorem soundData_setRing {s : State} (h : s.SoundData) {sel : RingSel} {r : Ring}
    (hsize : r.size = (s.ring sel).size) (hr : r.Sound) : (s.setRing sel r).SoundData := by
  cases sel
  · exact h.of_fields rfl rfl hsize rfl hr h.tx h.fb h.host h.channel h.latches
  · exact h.of_fields rfl rfl rfl hsize h.rx hr h.fb h.host h.channel h.latches

/-- Both rings are sound. -/
theorem State.SoundData.ring {s : State} (h : s.SoundData) (sel : RingSel) : (s.ring sel).Sound := by
  cases sel
  · exact h.rx
  · exact h.tx

/-- A draw is none of the data. -/
theorem soundData_drawn {s : State} (h : s.SoundData) (c : Option Byte) : (drawn c s).2.SoundData :=
  h.congr (by simp)

/-- Every ring primitive keeps the data. -/
theorem RingOp.soundData {s t : State} (op : RingOp s t) (h : s.SoundData) : t.SoundData := by
  cases op with
  | reset sel => exact soundData_setRing h rfl (h.ring sel).reset
  | flush sel => exact soundData_setRing h rfl (h.ring sel).flush
  | pop sel =>
    rcases ringPop_cases sel s with ⟨_, e⟩ | ⟨_, e⟩ <;> rw [e]
    · exact h
    · exact soundData_setRing (soundData_drawn h _) (by cases sel <;> simp [Ring.popped]) (h.ring sel).popped
  | push sel b =>
    rcases ringPush_cases sel b s with ⟨hroom, e⟩ | ⟨_, e⟩ <;> rw [e]
    · exact soundData_setRing h rfl ((h.ring sel).pushed b hroom)
    · exact h

/-! ## Memory writes -/

theorem soundData_putFb {s : State} (h : s.SoundData) {i : Nat} (v : Byte) (hi : i < Config.fbSize) :
    (putFb i v s).SoundData :=
  h.of_fields rfl rfl rfl rfl h.rx h.tx (putFb_wf v hi h.fb) h.host h.channel h.latches

theorem soundData_putFbRange {s : State} (h : s.SoundData) {i : Nat} {bs : List Byte}
    (hi : i + bs.length ≤ Config.fbSize) : (putFbRange i bs s).SoundData :=
  h.of_fields (by simp) (by simp) (by simp) (by simp) (by simpa using h.rx) (by simpa using h.tx)
    (putFbRange_wf bs hi h.fb) (by simpa [State.HostSound] using h.host) (by simpa using h.channel)
    (by simpa [State.LatchesEnabled] using h.latches)

theorem soundData_putHost {s : State} (h : s.SoundData) {a : Nat} (v : Byte) (ha : a < Config.hostSpace) :
    (putHost a v s).SoundData :=
  h.of_fields rfl rfl rfl rfl h.rx h.tx h.fb (putHost_wf v ha h.host) h.channel h.latches

/-! ## Events and the chip (60_exceptions.md R264 to R266; 41_radio_fsm.md R161 to R173) -/

/-- An event that fires sets its latch only where its enable is 1. -/
theorem soundData_fireEvent {s : State} (h : s.SoundData) (e : Event) : (fireEvent e s).SoundData := by
  rcases fireEvent_cases e s with ⟨hen, eq⟩ | ⟨_, eq⟩ <;> rw [eq]
  · refine h.of_fields rfl rfl rfl rfl h.rx h.tx h.fb h.host h.channel fun d hd => ?_
    rw [get_set] at hd
    split at hd
    · rename_i hde
      rw [hde]
      exact hen
    · exact h.latches d hd
  · exact h

/-- Taking an event only clears a latch before the handler's body runs. -/
theorem soundData_clearLatch {s : State} (h : s.SoundData) (e : Event) :
    ({ s with pend := s.pend.set e false } : State).SoundData := by
  refine h.of_fields rfl rfl rfl rfl h.rx h.tx h.fb h.host h.channel fun d hd => ?_
  rw [get_set] at hd
  split at hd
  · cases hd
  · exact h.latches d hd

/-- A write of `EVT_EN` clears each latch whose enable it clears. -/
theorem soundData_maskLatches {s : State} (h : s.SoundData) (c : Chip) (en : EventBits)
    (hc : c.fb = s.chip.fb) : ({ s with chip := c, en := en, pend := s.pend.mask en } : State).SoundData := by
  refine h.of_fields rfl rfl rfl rfl h.rx h.tx ?_ h.host h.channel fun d hd => ?_
  · unfold State.FbSound
    rw [show ({ s with chip := c, en := en, pend := s.pend.mask en } : State).chip.fb = s.chip.fb from hc]
    exact h.fb
  · rw [get_mask, Bool.and_eq_true] at hd
    exact hd.2

/-- The chip's own fields but the frame buffer are none of the data. -/
theorem soundData_chip {s : State} (h : s.SoundData) (c : Chip) (hc : c.fb = s.chip.fb) :
    ({ s with chip := c } : State).SoundData := h.congr (by simp [hc])

theorem soundData_setChipState {s : State} (h : s.SoundData) (code : BitVec 5) :
    (setChipState code s).SoundData := soundData_chip h _ rfl

theorem soundData_setArmed {s : State} (h : s.SoundData) (v : Bool) : (setArmed v s).SoundData :=
  soundData_chip h _ rfl

theorem soundData_emitFrame {s : State} (h : s.SoundData) : (emitFrame s).SoundData := h.congr (by simp)

theorem soundData_refTransmit {s : State} (h : s.SoundData) : (refTransmit s).SoundData := by
  rcases refTransmit_cases s with ⟨_, _, e⟩ | ⟨_, e⟩ <;> rw [e]
  · exact soundData_setArmed (soundData_fireEvent (soundData_emitFrame h) _) _
  · exact h

/-- Each command of the reference chip but `TX_START` sets its state, and perhaps `armed`, or does
nothing (R166 to R171). -/
theorem soundData_refCommand {s : State} (h : s.SoundData) (v : Byte) : (refCommand v s).SoundData := by
  have hset (code) := soundData_setChipState h code
  have harm (a code) := soundData_setArmed (hset code) a
  unfold refCommand
  split
  · exact soundData_refTransmit h
  · unfold refToIdle; split
    · exact h
    · exact harm _ _
  · unfold refListen; split
    · exact harm _ _
    · exact h
  · unfold refToIdle; split
    · exact h
    · exact harm _ _
  · unfold refReady; split
    · exact harm _ _
    · exact h
  · unfold refSleep; split
    · exact hset _
    · exact h
  · unfold refWake; split
    · exact hset _
    · exact h
  · exact h

theorem soundData_refPin {s : State} (h : s.SoundData) (v : Byte) : (refPin v s).SoundData := by
  unfold refPin
  split
  · exact soundData_chip (soundData_setArmed (soundData_setChipState h stIdle) false) _ rfl
  · split
    · exact soundData_refTransmit h
    · exact h

theorem soundData_grantEmission {s : State} (h : s.SoundData) : (grantEmission s).SoundData :=
  soundData_chip h _ rfl

/-- A chip-port write of the block keeps the data, whichever chip reacts. -/
theorem soundData_chipWrite {s : State} (h : s.SoundData) (r : ChipReg) (v : Byte) :
    (chipWrite r v s).SoundData := by
  cases r with
  | trxCmd =>
    have hreact {u : State} (hu : u.SoundData) : (reactCommand v u).SoundData := by
      unfold reactCommand; split
      · exact hu
      · exact soundData_refCommand hu v
    have hw : ({ s with chip.trxCmd := v } : State).SoundData := soundData_chip h _ rfl
    refine hreact ?_
    split
    · exact soundData_grantEmission hw
    · exact hw
  | pin =>
    have hreact {u : State} (hu : u.SoundData) : (reactPin v u).SoundData := by
      unfold reactPin; split
      · exact hu
      · exact soundData_refPin hu v
    have hw : ({ s with chip.pin := v } : State).SoundData := soundData_chip h _ rfl
    refine hreact ?_
    split
    · exact soundData_grantEmission hw
    · exact hw
  | evtEn => exact soundData_maskLatches h _ _ rfl
  | ctrl => exact soundData_chip h _ rfl
  | channel => exact soundData_chip h _ rfl
  | txPwr => exact soundData_chip h _ rfl

/-- A step of the chip keeps the data: only `writeFb` reaches the frame buffer, below its end. -/
theorem soundData_chipStep {s : State} (h : s.SoundData) (c : ChipStep) : (chipStep c s).SoundData := by
  unfold chipStep
  split
  · cases c with
    | setStatus v => exact soundData_chip h _ rfl
    | setQuality v => exact soundData_chip h _ rfl
    | emit =>
      unfold chipAct; dsimp only; split
      · exact soundData_emitFrame h
      · exact h
    | fireTxComplete => exact soundData_fireEvent h _
    | setCopy r v => exact soundData_chip h _ (by cases r <;> rfl)
    | writeFb i v =>
      unfold chipAct; dsimp only; split
      · exact soundData_putFb h v ‹_›
      · exact h
  · exact h

theorem soundData_setQuality {s : State} (h : s.SoundData) (q : Option Byte) :
    (setQuality q s).SoundData := by
  cases q
  · exact h
  · exact soundData_chip h _ rfl

theorem soundData_airPhase {s : State} (h : s.SoundData) (p : AirPhase) :
    ({ s with airPhase := p } : State).SoundData := h.congr (by simp)

/-- A step of the air keeps the data: an enabled frame end brings at most 127 bytes from index 1 (R180). -/
theorem soundData_airStep {s : State} (h : s.SoundData) (a : AirStep) : (airStep a s).SoundData := by
  unfold airStep
  split
  · rename_i hen
    cases a with
    | frameStart q => exact soundData_fireEvent (soundData_airPhase (soundData_setQuality h _) _) _
    | frameEnd len bytes q =>
      have hlen : 1 + bytes.length ≤ Config.fbSize := by
        simp only [airEnabled, Bool.and_eq_true, beq_iff_eq] at hen
        simp only [hen.2, Config.frameMax, Config.fbSize]
        omega
      have hfb := soundData_putFb (soundData_setQuality h q) len (show 0 < Config.fbSize by decide)
      exact soundData_fireEvent (soundData_airPhase (soundData_putFbRange hfb hlen) _) _
    | abandon => exact soundData_airPhase h _
  · exact h

/-! ## The handlers (42_event_handlers.md R181, R182) -/

/-- The push loop of onFrameEnd keeps the data: each byte is pushed, or counted where `RX` is full. -/
theorem soundData_acceptPayload {s : State} (h : s.SoundData) (bs : List Byte) :
    (acceptPayload bs s).SoundData := by
  induction bs generalizing s with
  | nil => exact h
  | cons b bs ih =>
    have hpush := (RingOp.push .rx b).soundData h
    simp only [acceptPayload]
    split
    · exact ih (hpush.congr (by simp))
    · exact ih hpush

theorem soundData_onFrameEnd {s : State} (h : s.SoundData) : (onFrameEnd s).SoundData := by
  unfold onFrameEnd
  split
  · dsimp only
    split
    · exact h.congr (by simp)
    · exact soundData_acceptPayload (h.congr (by simp)) _
  · exact h

end Sys2Proof.Machine

/-! What a step of a routine can do, said once: its effect on the state, and how it passes control
(10_state.md R45, R46). One inversion lemma for each routine, and one for the sequencer. -/

namespace Sys2Proof.Machine

/-! ## Labels -/

/-- What the shape of a stack reads of the top frame: a command, or which subroutine. -/
inductive RoutineKind where
  | command
  | forceIdle
  | loadAndSend
  | putOne
  | pushBlocking

/-- The kind of the routine a label belongs to. -/
def Label.kind : Label → RoutineKind
  | .forceIdle _ => .forceIdle
  | .loadAndSend _ => .loadAndSend
  | .putOne _ => .putOne
  | .pushBlocking _ => .pushBlocking
  | _ => .command

/-- The labels a routine of a kind may stand over: none for a command, its caller for a subroutine. -/
def RoutineKind.over : RoutineKind → List Label → Bool
  | .command, [] => true
  | .forceIdle, [c] => c.awaitsForceIdle
  | .putOne, [c] => c.awaitsPutOne
  | .loadAndSend, [c] => c.awaitsLoadAndSend
  | .loadAndSend, [.putOne .S3, c] => c.awaitsPutOne
  | _, _ => false

/-- The shape of a stack depends on the kind of its top alone. -/
theorem stackShape_cons (l : Label) (rest : List Label) : stackShape (l :: rest) = l.kind.over rest := by
  match rest with
  | [] => cases l <;> rfl
  | [c] => cases l <;> rfl
  | [p, c] =>
    cases p with
    | putOne q => cases q <;> cases l <;> rfl
    | _ => cases l <;> rfl
  | p :: c :: d :: ds => cases l <;> rfl

/-- A command is called by nobody. -/
theorem over_command {ls : List Label} (h : RoutineKind.command.over ls = true) : ls = [] := by
  cases ls with
  | nil => rfl
  | cons => cases h

/-- The steps at which a routine works on a ring. -/
def Label.usesRings : Label → Bool
  | .init .S3 | .init .S4 | .getByte .S2 | .getBuffer .S5 | .flushRx .S2 | .loadAndSend .S4
  | .putOne .S1 | .pushBlocking .S2 => true
  | _ => false

/-! ## Frames -/

/-- The frame a call of a subroutine makes. -/
inductive Frame.IsCall : Frame → Prop
  | forceIdle : IsCall forceIdleFrame
  | loadAndSend : IsCall loadAndSendFrame
  | putOne (b : Byte) : IsCall (putOneFrame b)
  | pushBlocking (sel : RingSel) (b : Byte) : IsCall (pushBlockingFrame sel b)

/-- The locals of a subroutine's first step are in bounds. -/
theorem Frame.IsCall.wf {g : Frame} (h : g.IsCall) (n : Nat) : g.wf n = true := by
  cases h <;> rfl

/-- A subroutine's frame agrees with any `initialized`. -/
theorem Frame.IsCall.activityOk {g : Frame} (h : g.IsCall) (ch : BitVec 5) : g.activityOk ch = true := by
  cases h <;> rfl

/-- A returned value goes to a local no bound reads. -/
def KeepsBounds (give : Locals → Locals) : Prop :=
  ∀ (n : Nat) (g : Frame), Frame.wf n { g with loc := give g.loc } = g.wf n

/-- The frame `g` may follow `f` on top of the stack, in a step from `s` whose effect leads to `u`. -/
structure Frame.Next (f : Frame) (s u : State) (g : Frame) : Prop where
  kind : g.label.kind = f.label.kind
  wf : f.wf s.maxPayload = true → g.wf s.maxPayload = true
  activity : f.activityOk s.initialized = true → g.activityOk u.initialized = true

/-- An effect that leaves `initialized` leaves what the frames must agree with. -/
theorem Frame.Next.keep {f g : Frame} {s u : State} (hu : u.initialized = s.initialized)
    (kind : g.label.kind = f.label.kind) (wf : f.wf s.maxPayload = true → g.wf s.maxPayload = true)
    (activity : f.activityOk s.initialized = true → g.activityOk s.initialized = true) : f.Next s u g :=
  ⟨kind, wf, by rw [hu]; exact activity⟩

/-! ## A step of the sequencer -/

/-- What a step of the frame `f` does to the state before it passes control. -/
inductive SeqEffect (f : Frame) (s : State) : State → Prop
  | none : SeqEffect f s s
  | chipWrite (r : ChipReg) (v : Byte) : SeqEffect f s (chipWrite r v s)
  | frameByte {i : Nat} (v : Byte) (hi : i < Config.fbSize) : SeqEffect f s (putFb i v s)
  | hostByte {a : Nat} (v : Byte) (ha : a < Config.hostSpace) : SeqEffect f s (putHost a v s)
  | ring {u : State} (hl : f.label.usesRings = true) (op : RingOp s u) : SeqEffect f s u
  | clearOverflow (hl : f.label = .flushRx .S3) : SeqEffect f s { s with rxOverflow := 0 }
  | activate (hl : f.label = .init .S18) :
    SeqEffect f s { s with rxOverflow := 0, txIdle := true, initialized := f.loc.ch }
  | deactivate (hl : f.label = .terminate .S2) :
    SeqEffect f s { s with initialized := 0, rxOverflow := 0, txIdle := false }

/-- What a step of the frame `f` over the frames `rest` leads to: it waits, goes on, calls, returns, ends
the command, or raises a fault (R46). -/
inductive Stepped (f : Frame) (rest : List Frame) (s : State) : State → Prop
  | stay : Stepped f rest s s
  | goto {u : State} {l : Label} {x : Locals} (e : SeqEffect f s u) (n : f.Next s u ⟨l, x⟩) :
    Stepped f rest s (moveTo l x rest u)
  | call {l : Label} {x : Locals} {g : Frame} (hg : g.IsCall) (n : f.Next s s ⟨l, x⟩)
    (shape : ∀ ls, f.label.kind.over ls = true → g.label.kind.over (l :: ls) = true) :
    Stepped f rest s (callSub g (moveTo l x rest s))
  | ret {u : State} {v : OpResult} {give : Locals → Locals} (e : SeqEffect f s u) (hgive : KeepsBounds give) :
    Stepped f rest s (returnSub v give rest u)
  | finish {u : State} {v : Int} (hc : f.label.isCommand = true) (e : SeqEffect f s u) :
    Stepped f rest s (finish v u)
  | fault (c : FaultCode) : Stepped f rest s (raiseFault c s)

section Routines

variable {x : Locals} {rest : List Frame} {s t : State}

/-- A command's call stands over the command alone. -/
theorem Stepped.commandCall {f g : Frame} {l : Label} {y : Locals} (hf : f.label.kind = .command)
    (hg : g.IsCall) (n : f.Next s s ⟨l, y⟩) (hl : g.label.kind.over [l] = true) :
    Stepped f rest s (callSub g (moveTo l y rest s)) :=
  .call hg n fun ls h => by
    rw [hf] at h
    rw [over_command h]
    exact hl

/-- The return of FORCE_IDLE. -/
theorem Stepped.retFlag {f : Frame} {ok : Bool} : Stepped f rest s (returnFlag ok rest s) :=
  .ret .none fun _ _ => rfl

/-- The return of a ring result. -/
theorem Stepped.retRing {f : Frame} {u : State} {r : OpResult} (e : SeqEffect f s u) :
    Stepped f rest s (returnRing r rest u) :=
  .ret e fun _ _ => rfl

/-- The return of LOAD_AND_SEND. -/
theorem Stepped.retIgnored {f : Frame} {u : State} (e : SeqEffect f s u) :
    Stepped f rest s (returnIgnored rest u) :=
  .ret e fun _ _ => rfl

/-- An answered POP is a ring operation. -/
theorem ringOp_of_pop {sel : RingSel} {r : OpResult} {u : State} (h : ringPop sel s = (r, u)) :
    RingOp s u := by
  have op := RingOp.pop (s := s) sel
  rwa [h] at op

/-- The inactive check at the head of a command: the command ends, or the block is active
(44_transport_api.md R231). -/
theorem stepped_of_check {f : Frame} {v : Int} {l : Label} {y : Locals} (hc : f.label.isCommand = true)
    (n : s.initialized ≠ 0 → f.Next s s ⟨l, y⟩) :
    Stepped f rest s (if s.initialized = 0 then finish v s else moveTo l y rest s) := by
  split
  · exact .finish hc .none
  · rename_i h0
    exact .goto .none (n h0)

/-- A step that writes a frame-buffer byte and goes on. -/
theorem stepped_of_writeFb {f : Frame} {l : Label} {y : Locals} {i : Nat} {v : Byte}
    (h : andThen (writeFb i v s) (fun u => .next (moveTo l y rest u)) = .next t)
    (n : f.Next s (putFb i v s) ⟨l, y⟩) : Stepped f rest s t := by
  obtain ⟨u, hw, hu⟩ := andThen_eq_next.1 h
  obtain ⟨hi, rfl⟩ := writeFb_eq_next.1 hw
  obtain rfl := Host.Outcome.next.inj hu
  exact .goto (.frameByte v hi) n

/-- A step that writes a host-memory byte and goes on. -/
theorem stepped_of_memWrite {f : Frame} {l : Label} {y : Locals} {a : Nat} {v : Byte}
    (h : andThen (memWrite a v s) (fun u => .next (moveTo l y rest u)) = .next t)
    (n : f.Next s (putHost a v s) ⟨l, y⟩) : Stepped f rest s t := by
  obtain ⟨u, hw, hu⟩ := andThen_eq_next.1 h
  obtain ⟨ha, rfl⟩ := memWrite_eq_next.1 hw
  obtain rfl := Host.Outcome.next.inj hu
  exact .goto (.hostByte v ha) n

/-- FORCE_IDLE (41_radio_fsm.md R160). -/
theorem stepForceIdle_stepped {l : ForceIdleStep} (h : stepForceIdle l x rest s = .next t) :
    Stepped ⟨.forceIdle l, x⟩ rest s t := by
  have trivialNext {u : State} {m : ForceIdleStep} :
      Frame.Next ⟨.forceIdle l, x⟩ s u ⟨.forceIdle m, x⟩ := ⟨rfl, fun _ => rfl, fun _ => rfl⟩
  cases l <;> obtain rfl := Host.Outcome.next.inj h
  case S1 | S4 | S7 => exact .goto (.chipWrite _ _) trivialNext
  case S2 | S5 | S8 => exact .goto .none trivialNext
  case S3 | S6 | S9 =>
    split
    · exact .retFlag
    · exact .goto .none trivialNext
  case S10 => exact .retFlag

/-- LOAD_AND_SEND (43_frame_assembler.md R200): the drain counts to `MAX_PAYLOAD - 1` at most. -/
theorem stepLoadAndSend_stepped {l : LoadAndSendStep} (h : stepLoadAndSend l x rest s = .next t) :
    Stepped ⟨.loadAndSend l, x⟩ rest s t := by
  cases l
  case S1 | S8 | S9 | S10 =>
    obtain rfl := Host.Outcome.next.inj h
    exact .goto (.chipWrite _ _) ⟨rfl, fun _ => rfl, fun _ => rfl⟩
  case S2 =>
    obtain rfl := Host.Outcome.next.inj h
    split
    · exact .goto .none ⟨rfl, fun _ => rfl, fun _ => rfl⟩
    · exact .stay
  case S3 =>
    obtain rfl := Host.Outcome.next.inj h
    exact .goto .none ⟨rfl, fun _ => by simp [Frame.wf], fun _ => rfl⟩
  case S4 =>
    obtain rfl := Host.Outcome.next.inj h
    split
    · exact .goto .none ⟨rfl, id, fun _ => rfl⟩
    · rename_i hn
      split
      · rename_i hpop
        refine .goto (.ring rfl (ringOp_of_pop hpop)) ⟨rfl, fun hwf => ?_, fun _ => rfl⟩
        have hle : x.n ≤ s.maxPayload - 1 := of_decide_eq_true hwf
        exact decide_eq_true (by omega : x.n < s.maxPayload - 1)
      · rename_i hpop
        exact .goto (.ring rfl (ringOp_of_pop hpop)) ⟨rfl, id, fun _ => rfl⟩
  case S5 =>
    refine stepped_of_writeFb h ⟨rfl, fun hwf => ?_, fun _ => rfl⟩
    have hlt : x.n < s.maxPayload - 1 := of_decide_eq_true hwf
    exact decide_eq_true (by omega : x.n + 1 ≤ s.maxPayload - 1)
  case S6 => exact stepped_of_writeFb h ⟨rfl, id, fun _ => rfl⟩
  case S7 =>
    simp only [stepLoadAndSend] at h
    exact stepped_of_writeFb h ⟨rfl, fun _ => rfl, fun _ => rfl⟩
  case S11 =>
    obtain rfl := Host.Outcome.next.inj h
    exact .goto .none ⟨rfl, fun _ => rfl, fun _ => rfl⟩
  case S12 =>
    obtain rfl := Host.Outcome.next.inj h
    exact .retIgnored (.chipWrite _ _)

/-- PUT_ONE (44_transport_api.md R226). -/
theorem stepPutOne_stepped {l : PutOneStep} (h : stepPutOne l x rest s = .next t) :
    Stepped ⟨.putOne l, x⟩ rest s t := by
  cases l <;> obtain rfl := Host.Outcome.next.inj h
  case S1 =>
    have hpush : SeqEffect ⟨.putOne .S1, x⟩ s (ringPush .tx x.b s).2 := .ring rfl (.push _ _)
    split
    · exact .retRing hpush
    · exact .goto hpush ⟨rfl, fun _ => rfl, fun _ => rfl⟩
  case S2 =>
    refine .call .loadAndSend ⟨rfl, fun _ => rfl, fun _ => rfl⟩ fun ls hls => ?_
    match ls, hls with
    | [c], hc => exact hc
  case S3 => exact .retRing .none

/-- PUSH_BLOCKING (40_ring_buffer.md R124). -/
theorem stepPushBlocking_stepped {l : PushBlockingStep} (h : stepPushBlocking l x rest s = .next t) :
    Stepped ⟨.pushBlocking l, x⟩ rest s t := by
  cases l <;> obtain rfl := Host.Outcome.next.inj h
  case S1 | S3 => exact .goto .none ⟨rfl, fun _ => rfl, fun _ => rfl⟩
  case S2 =>
    have hpush : SeqEffect ⟨.pushBlocking .S2, x⟩ s (ringPush x.sel x.b s).2 := .ring rfl (.push _ _)
    split
    · exact .goto hpush ⟨rfl, fun _ => rfl, fun _ => rfl⟩
    · exact .retRing hpush
  case S4 =>
    split
    · exact .goto .none ⟨rfl, fun _ => rfl, fun _ => rfl⟩
    · exact .retRing .none

/-- The channel INIT chooses is a legal one (41_radio_fsm.md R151). -/
theorem clampChannel_legal (a8 : Byte) :
    Config.chMin ≤ (clampChannel a8).toNat ∧ (clampChannel a8).toNat ≤ Config.chMax := by
  unfold clampChannel Config.chMin Config.chMax Config.chDefault
  split
  · simp
    omega
  · simp

/-- INIT (41_radio_fsm.md R150). -/
theorem stepInit_stepped {l : InitStep} (h : stepInit l x rest s = .next t) :
    Stepped ⟨.init l, x⟩ rest s t := by
  cases l <;> obtain rfl := Host.Outcome.next.inj h
  case S1 =>
    split
    · rename_i h0
      exact .goto .none ⟨rfl, fun _ => rfl, fun _ => decide_eq_true h0⟩
    · exact .fault _
  case S2 =>
    refine .goto .none ⟨rfl, fun _ => ?_, id⟩
    obtain ⟨hmin, hmax⟩ := clampChannel_legal x.a8
    simp [Frame.wf, hmin, hmax]
  case S3 | S4 => exact .goto (.ring rfl (.reset _)) ⟨rfl, id, id⟩
  case S5 =>
    split
    · exact .stay
    · exact .goto .none ⟨rfl, id, id⟩
  case S6 => exact .goto .none ⟨rfl, id, id⟩
  case S7 =>
    split
    · exact .goto (.chipWrite _ _) (.keep (by simp) rfl id id)
    · exact .goto .none ⟨rfl, id, id⟩
  case S8 | S9 | S10 | S13 | S14 | S15 | S16 | S17 =>
    exact .goto (.chipWrite _ _) (.keep (by simp) rfl id id)
  case S11 => exact .commandCall rfl .forceIdle ⟨rfl, id, id⟩ rfl
  case S12 =>
    split
    · exact .goto .none ⟨rfl, id, id⟩
    · exact .finish rfl .none
  case S18 => exact .finish rfl (.activate rfl)

/-- TERMINATE (41_radio_fsm.md R154). -/
theorem stepTerminate_stepped {l : TerminateStep} (h : stepTerminate l x rest s = .next t) :
    Stepped ⟨.terminate l, x⟩ rest s t := by
  cases l <;> obtain rfl := Host.Outcome.next.inj h
  case S1 =>
    split
    · exact .finish rfl .none
    · exact .goto .none ⟨rfl, id, fun _ => rfl⟩
  case S2 => exact .goto (.deactivate rfl) ⟨rfl, id, fun _ => rfl⟩
  case S3 => exact .commandCall rfl .forceIdle ⟨rfl, id, fun _ => rfl⟩ rfl
  case S4 | S5 => exact .goto (.chipWrite _ _) ⟨rfl, id, fun _ => rfl⟩
  case S6 => exact .finish rfl .none

/-- ISACTIVE (41_radio_fsm.md R155). -/
theorem stepIsActive_stepped {l : IsActiveStep} (h : stepIsActive l s = .next t) :
    Stepped ⟨.isActive l, x⟩ rest s t := by
  cases l
  obtain rfl := Host.Outcome.next.inj h
  exact .finish rfl .none

/-- AVAILABLE (44_transport_api.md R220). -/
theorem stepAvailable_stepped {l : AvailableStep} (h : stepAvailable l x rest s = .next t) :
    Stepped ⟨.available l, x⟩ rest s t := by
  cases l <;> obtain rfl := Host.Outcome.next.inj h
  case S1 => exact stepped_of_check rfl fun h0 => ⟨rfl, id, fun _ => decide_eq_true h0⟩
  case S2 => exact .finish rfl .none

/-- GETBYTE (44_transport_api.md R221). -/
theorem stepGetByte_stepped {l : GetByteStep} (h : stepGetByte l x rest s = .next t) :
    Stepped ⟨.getByte l, x⟩ rest s t := by
  cases l <;> obtain rfl := Host.Outcome.next.inj h
  case S1 => exact stepped_of_check rfl fun h0 => ⟨rfl, id, fun _ => decide_eq_true h0⟩
  case S2 => exact .finish rfl (.ring rfl (.pop .rx))

/-- GETBUFFER (44_transport_api.md R222, R223): its two counters stay in the range tested at S2. -/
theorem stepGetBuffer_stepped {l : GetBufferStep} (h : stepGetBuffer l x rest s = .next t) :
    Stepped ⟨.getBuffer l, x⟩ rest s t := by
  cases l
  case S1 =>
    obtain rfl := Host.Outcome.next.inj h
    exact stepped_of_check rfl fun h0 => ⟨rfl, fun _ => rfl, fun _ => decide_eq_true h0⟩
  case S2 =>
    obtain rfl := Host.Outcome.next.inj h
    split
    · exact .fault _
    · rename_i hrange
      exact .goto .none ⟨rfl, fun _ => by simp [Frame.wf, hrange], id⟩
  case S3 =>
    simp only [stepGetBuffer] at h
    split at h
    · obtain rfl := Host.Outcome.next.inj h
      refine .goto .none ⟨rfl, fun hwf => ?_, id⟩
      simp only [Frame.wf, Bool.and_eq_true] at hwf ⊢
      obtain ⟨_, hrange⟩ := hwf
      exact hrange
    · rename_i hi
      refine stepped_of_memWrite h ⟨rfl, fun hwf => ?_, id⟩
      simp only [Frame.wf, Bool.and_eq_true, decide_eq_true_eq] at hwf ⊢
      obtain ⟨hcount, hrange⟩ := hwf
      exact ⟨by omega, hrange⟩
  case S4 =>
    obtain rfl := Host.Outcome.next.inj h
    refine .goto .none ⟨rfl, fun hwf => ?_, id⟩
    simp only [Frame.wf] at hwf ⊢
    simp [hwf]
  case S5 =>
    obtain rfl := Host.Outcome.next.inj h
    split
    · exact .finish rfl .none
    · rename_i hk
      split
      · rename_i hpop
        have op := ringOp_of_pop hpop
        refine .goto (.ring rfl op) (.keep op.initialized_eq rfl (fun hwf => ?_) id)
        simp only [Frame.wf, Bool.and_eq_true, decide_eq_true_eq] at hwf ⊢
        obtain ⟨⟨hcount, hmax⟩, hrange⟩ := hwf
        exact ⟨⟨by omega, hmax⟩, hrange⟩
      · rename_i hpop
        exact .finish rfl (.ring rfl (ringOp_of_pop hpop))
  case S6 =>
    refine stepped_of_memWrite h ⟨rfl, fun hwf => ?_, id⟩
    simp only [Frame.wf, Bool.and_eq_true, decide_eq_true_eq] at hwf ⊢
    obtain ⟨⟨hcount, hmax⟩, hrange⟩ := hwf
    exact ⟨⟨by omega, hmax⟩, hrange⟩

/-- FLUSHRX (44_transport_api.md R224). -/
theorem stepFlushRx_stepped {l : FlushRxStep} (h : stepFlushRx l x rest s = .next t) :
    Stepped ⟨.flushRx l, x⟩ rest s t := by
  cases l <;> obtain rfl := Host.Outcome.next.inj h
  case S1 => exact stepped_of_check rfl fun h0 => ⟨rfl, id, fun _ => decide_eq_true h0⟩
  case S2 => exact .goto (.ring rfl (.flush .rx)) ⟨rfl, id, id⟩
  case S3 => exact .finish rfl (.clearOverflow rfl)

/-- OVFCOUNT (44_transport_api.md R225). -/
theorem stepOvfCount_stepped {l : OvfCountStep} (h : stepOvfCount l s = .next t) :
    Stepped ⟨.ovfCount l, x⟩ rest s t := by
  cases l
  obtain rfl := Host.Outcome.next.inj h
  exact .finish rfl .none

/-- PUTBYTE (44_transport_api.md R227). -/
theorem stepPutByte_stepped {l : PutByteStep} (h : stepPutByte l x rest s = .next t) :
    Stepped ⟨.putByte l, x⟩ rest s t := by
  cases l <;> obtain rfl := Host.Outcome.next.inj h
  case S1 => exact stepped_of_check rfl fun h0 => ⟨rfl, id, fun _ => decide_eq_true h0⟩
  case S2 => exact .commandCall rfl (.putOne _) ⟨rfl, id, id⟩ rfl
  case S3 => exact .finish rfl .none

/-- PUTBUFFER (44_transport_api.md R228): its counter stays in the range tested at S2. -/
theorem stepPutBuffer_stepped {l : PutBufferStep} (h : stepPutBuffer l x rest s = .next t) :
    Stepped ⟨.putBuffer l, x⟩ rest s t := by
  cases l
  case S1 =>
    obtain rfl := Host.Outcome.next.inj h
    exact stepped_of_check rfl fun h0 => ⟨rfl, fun _ => rfl, fun _ => decide_eq_true h0⟩
  case S2 =>
    obtain rfl := Host.Outcome.next.inj h
    split
    · exact .fault _
    · rename_i hrange
      exact .goto .none ⟨rfl, fun _ => by simp [Frame.wf, hrange], id⟩
  case S3 =>
    simp only [stepPutBuffer] at h
    split at h
    · obtain rfl := Host.Outcome.next.inj h
      exact .finish rfl .none
    · rename_i hi
      obtain ⟨_, h⟩ := memRead_eq_next.1 h
      obtain rfl := Host.Outcome.next.inj h
      refine .goto .none ⟨rfl, fun hwf => ?_, id⟩
      simp only [Frame.wf, Bool.and_eq_true, decide_eq_true_eq] at hwf ⊢
      obtain ⟨hcount, hrange⟩ := hwf
      exact ⟨by omega, hrange⟩
  case S4 =>
    obtain rfl := Host.Outcome.next.inj h
    exact .commandCall rfl (.putOne _) ⟨rfl, id, id⟩ rfl
  case S5 =>
    obtain rfl := Host.Outcome.next.inj h
    refine .goto .none ⟨rfl, fun hwf => ?_, id⟩
    simp only [Frame.wf, Bool.and_eq_true, decide_eq_true_eq] at hwf ⊢
    obtain ⟨hcount, hrange⟩ := hwf
    exact ⟨by omega, hrange⟩

/-- PUTSTRING (44_transport_api.md R229): the scan ends at `STRLEN_MAX` and inside the address space, and
the copy stays in what the scan passed. -/
theorem stepPutString_stepped {l : PutStringStep} (h : stepPutString l x rest s = .next t) :
    Stepped ⟨.putString l, x⟩ rest s t := by
  cases l
  case S1 =>
    obtain rfl := Host.Outcome.next.inj h
    exact stepped_of_check rfl fun h0 => ⟨rfl, fun _ => rfl, fun _ => decide_eq_true h0⟩
  case S2 =>
    simp only [stepPutString] at h
    split at h
    · obtain rfl := Host.Outcome.next.inj h
      exact .fault _
    · obtain ⟨ha, h⟩ := memRead_eq_next.1 h
      obtain rfl := Host.Outcome.next.inj h
      split
      · refine .goto .none ⟨rfl, fun hwf => ?_, id⟩
        simp only [Frame.wf, Bool.and_eq_true, decide_eq_true_eq] at hwf ⊢
        exact ⟨hwf, ha⟩
      · split
        · exact .fault _
        · rename_i hn
          refine .goto .none ⟨rfl, fun hwf => ?_, id⟩
          simp only [Frame.wf, decide_eq_true_eq] at hwf ⊢
          omega
  case S3 =>
    obtain rfl := Host.Outcome.next.inj h
    refine .goto .none ⟨rfl, fun hwf => ?_, id⟩
    simp only [Frame.wf, Bool.and_eq_true, decide_eq_true_eq] at hwf ⊢
    obtain ⟨hmax, hrange⟩ := hwf
    exact ⟨⟨Nat.zero_le _, hmax⟩, hrange⟩
  case S4 =>
    simp only [stepPutString] at h
    split at h
    · obtain rfl := Host.Outcome.next.inj h
      refine .goto .none ⟨rfl, fun hwf => ?_, id⟩
      simp only [Frame.wf, Bool.and_eq_true, decide_eq_true_eq] at hwf ⊢
      obtain ⟨⟨_, hmax⟩, hrange⟩ := hwf
      exact ⟨hmax, hrange⟩
    · rename_i hi
      obtain ⟨_, h⟩ := memRead_eq_next.1 h
      obtain rfl := Host.Outcome.next.inj h
      refine .goto .none ⟨rfl, fun hwf => ?_, id⟩
      simp only [Frame.wf, Bool.and_eq_true, decide_eq_true_eq] at hwf ⊢
      obtain ⟨⟨hcount, hmax⟩, hrange⟩ := hwf
      exact ⟨⟨by omega, hmax⟩, hrange⟩
  case S5 =>
    obtain rfl := Host.Outcome.next.inj h
    exact .commandCall rfl (.putOne _) ⟨rfl, id, id⟩ rfl
  case S6 =>
    obtain rfl := Host.Outcome.next.inj h
    refine .goto .none ⟨rfl, fun hwf => ?_, id⟩
    simp only [Frame.wf, Bool.and_eq_true, decide_eq_true_eq] at hwf ⊢
    obtain ⟨⟨hcount, hmax⟩, hrange⟩ := hwf
    exact ⟨⟨by omega, hmax⟩, hrange⟩
  case S7 =>
    obtain rfl := Host.Outcome.next.inj h
    exact .commandCall rfl .loadAndSend ⟨rfl, id, id⟩ rfl
  case S8 =>
    obtain rfl := Host.Outcome.next.inj h
    exact .finish rfl .none

/-- TRANSMITNOW (44_transport_api.md R230). -/
theorem stepTransmitNow_stepped {l : TransmitNowStep} (h : stepTransmitNow l x rest s = .next t) :
    Stepped ⟨.transmitNow l, x⟩ rest s t := by
  cases l <;> obtain rfl := Host.Outcome.next.inj h
  case S1 => exact stepped_of_check rfl fun h0 => ⟨rfl, id, fun _ => decide_eq_true h0⟩
  case S2 => exact .commandCall rfl .loadAndSend ⟨rfl, id, id⟩ rfl
  case S3 => exact .finish rfl .none

/-- The step of a frame is the step of its routine. -/
theorem stepFrame_stepped {f : Frame} (h : stepFrame f rest s = .next t) : Stepped f rest s t := by
  obtain ⟨l, x⟩ := f
  cases l with
  | init l => exact stepInit_stepped h
  | terminate l => exact stepTerminate_stepped h
  | isActive l => exact stepIsActive_stepped h
  | available l => exact stepAvailable_stepped h
  | getByte l => exact stepGetByte_stepped h
  | getBuffer l => exact stepGetBuffer_stepped h
  | flushRx l => exact stepFlushRx_stepped h
  | ovfCount l => exact stepOvfCount_stepped h
  | putByte l => exact stepPutByte_stepped h
  | putBuffer l => exact stepPutBuffer_stepped h
  | putString l => exact stepPutString_stepped h
  | transmitNow l => exact stepTransmitNow_stepped h
  | forceIdle l => exact stepForceIdle_stepped h
  | loadAndSend l => exact stepLoadAndSend_stepped h
  | putOne l => exact stepPutOne_stepped h
  | pushBlocking l => exact stepPushBlocking_stepped h

/-- A step of the sequencer: none while it is idle (log 13), else the step of the top frame. -/
theorem seqStep_cases (h : seqStep s = .next t) :
    (s.seq = .idle ∧ t = s) ∨ ∃ f rest, s.seq = .run f rest ∧ Stepped f rest s t := by
  unfold seqStep at h
  split at h
  · rename_i hidle
    exact .inl ⟨hidle, (Host.Outcome.next.inj h).symm⟩
  · rename_i f rest hrun
    exact .inr ⟨f, rest, hrun, stepFrame_stepped h⟩

end Routines

end Sys2Proof.Machine

/-! What each step of the sequencer keeps, from the one inversion `Stepped`. -/

namespace Sys2Proof.Machine

variable {f : Frame} {rest : List Frame} {s t u : State}

/-! ## The effect of a step -/

/-- An effect writes neither `seq` nor `STATUS`, `ADDR`, `RESULT` or a parameter. -/
theorem SeqEffect.control (e : SeqEffect f s u) :
    u.seq = s.seq ∧ u.status = s.status ∧ u.maxPayload = s.maxPayload ∧ u.addr = s.addr ∧
      u.result = s.result := by
  cases e with
  | ring _ op => cases op <;> simp
  | _ => simp

/-- Only INIT's last step and TERMINATE's second write `initialized` and `txIdle` (R28, R29). -/
theorem SeqEffect.activation (e : SeqEffect f s u) :
    (u.initialized = s.initialized ∧ u.txIdle = s.txIdle) ∨ f.label = .init .S18 ∨
      (f.label = .terminate .S2 ∧ u.initialized = 0) := by
  cases e with
  | ring _ op => cases op <;> simp
  | activate hl => exact .inr (.inl hl)
  | deactivate hl => exact .inr (.inr ⟨hl, rfl⟩)
  | _ => simp

/-- The sequencer writes `rxOverflow` in three steps only (R27). -/
theorem SeqEffect.overflow (e : SeqEffect f s u) :
    u.rxOverflow = s.rxOverflow ∨ f.label = .init .S18 ∨ f.label = .terminate .S2 ∨
      f.label = .flushRx .S3 := by
  cases e with
  | ring _ op => cases op <;> simp
  | clearOverflow hl => exact .inr (.inr (.inr hl))
  | activate hl => exact .inr (.inl hl)
  | deactivate hl => exact .inr (.inr (.inl hl))
  | _ => simp

/-- The sequencer writes a ring only at a step that works on one. -/
theorem SeqEffect.rings (e : SeqEffect f s u) :
    (u.rx = s.rx ∧ u.tx = s.tx) ∨ f.label.usesRings = true := by
  cases e with
  | ring hl _ => exact .inr hl
  | _ => simp

/-- An effect keeps the data: INIT's channel is a legal one. -/
theorem SeqEffect.soundData (e : SeqEffect f s u) (h : s.SoundData) (hf : f.wf s.maxPayload = true) :
    u.SoundData := by
  cases e with
  | none => exact h
  | chipWrite r v => exact soundData_chipWrite h r v
  | frameByte v hi => exact soundData_putFb h v hi
  | hostByte v ha => exact soundData_putHost h v ha
  | ring _ op => exact op.soundData h
  | clearOverflow _ => exact h.congr (by simp)
  | activate hl =>
    simp only [Frame.wf, hl, Bool.and_eq_true, decide_eq_true_eq] at hf
    exact h.of_fields rfl rfl rfl rfl h.rx h.tx h.fb h.host hf.2 h.latches
  | deactivate _ => exact h.of_fields rfl rfl rfl rfl h.rx h.tx h.fb h.host (Nat.zero_le _) h.latches

/-! ## Registers -/

/-- Passing control writes none of the block's registers but `RESULT`, and that where a command ends. -/
theorem Stepped.effect (st : Stepped f rest s t) :
    ∃ u, SeqEffect f s u ∧ t.initialized = u.initialized ∧ t.txIdle = u.txIdle ∧
      t.rxOverflow = u.rxOverflow ∧ t.addr = u.addr ∧ t.rx = u.rx ∧ t.tx = u.tx ∧
      (t.result = u.result ∨ t.seq = .idle ∧ t.status.busy = false ∧ f.label.isCommand = true) := by
  cases st with
  | stay => exact ⟨s, .none, by simp⟩
  | goto e _ => exact ⟨_, e, by simp⟩
  | call _ _ _ => exact ⟨s, .none, by simp⟩
  | ret e _ => exact ⟨_, e, by simp⟩
  | finish hc e => exact ⟨_, e, by simp [hc]⟩
  | fault c => exact ⟨s, .none, by simp⟩

/-! ## The invariant -/

/-- A step of the sequencer keeps the data. -/
theorem Stepped.soundData (st : Stepped f rest s t) (h : s.SoundData) (hf : f.wf s.maxPayload = true) :
    t.SoundData := by
  cases st with
  | stay => exact h
  | goto e _ => exact soundData_moveTo (e.soundData h hf) _ _ _
  | call _ _ _ => exact soundData_callSub (soundData_moveTo h _ _ _) _
  | ret e _ => exact soundData_returnSub (e.soundData h hf) _ _ _
  | finish _ e => exact soundData_finish (e.soundData h hf) _
  | fault c => exact soundData_raiseFault h c

/-- An idle sequencer is sound while `BUSY` is 0. -/
theorem soundControl_idle (hseq : t.seq = .idle) (hbusy : t.status.busy = false) : t.SoundControl where
  busy := by simp [hseq, hbusy]
  frames := by simp [hseq]

/-- A running sequencer is sound while `BUSY` is 1 and its frames are in bounds. -/
theorem soundControl_run (hseq : t.seq = .run f rest) (hbusy : t.status.busy = true)
    (hf : f.wf t.maxPayload = true) (hrest : ∀ g ∈ rest, g.wf t.maxPayload = true) : t.SoundControl where
  busy := by simp [hseq, hbusy]
  frames := by simpa [hseq] using ⟨hf, hrest⟩

/-- A step of the sequencer keeps the frames in bounds and `BUSY` in step with them. -/
theorem Stepped.soundControl (st : Stepped f rest s t) (hrun : s.seq = .run f rest) (h : s.SoundControl) :
    t.SoundControl := by
  have hbusy : s.status.busy = true := h.busy.2 (by simp [hrun])
  have hframes : f.wf s.maxPayload = true ∧ ∀ g ∈ rest, g.wf s.maxPayload = true := by
    simpa [hrun] using h.frames
  obtain ⟨hf, hrest⟩ := hframes
  cases st with
  | stay => exact h
  | goto e n =>
    obtain ⟨_, hstatus, hpay, _⟩ := e.control
    refine soundControl_run rfl ?_ ?_ ?_
    · simpa [hstatus] using hbusy
    · simpa [hpay] using n.wf hf
    · simpa [hpay] using hrest
  | call hg n _ =>
    exact soundControl_run rfl hbusy (hg.wf _) (List.forall_mem_cons.2 ⟨n.wf hf, hrest⟩)
  | @ret u v give e hgive =>
    obtain ⟨_, hstatus, hpay, _⟩ := e.control
    rcases returnSub_cases v give rest u with ⟨g, gs, rfl, eq⟩ | ⟨_, eq⟩ <;> rw [eq]
    · obtain ⟨hg, hgs⟩ := List.forall_mem_cons.1 hrest
      refine soundControl_run rfl ?_ ?_ ?_
      · simpa [hstatus] using hbusy
      · exact (hgive _ g).trans (by simpa [hpay] using hg)
      · simpa [hpay] using hgs
    · exact soundControl_idle rfl rfl
  | finish _ _ => exact soundControl_idle rfl rfl
  | fault c => exact soundControl_idle rfl rfl

/-! ## The discipline (10_state.md R45, R29 to R31) -/

/-- Who waits for a subroutine, but for PUT_ONE at its step S3, is a command. -/
theorem kind_of_awaits {c : Label}
    (h : c.awaitsForceIdle = true ∨ c.awaitsPutOne = true ∨ c.awaitsLoadAndSend = true) :
    c.kind = .command := by
  cases c
  case forceIdle | loadAndSend | putOne | pushBlocking =>
    simp [Label.awaitsForceIdle, Label.awaitsPutOne, Label.awaitsLoadAndSend] at h
  all_goals rfl

/-- The frames a shaped stack may have below its top: none, a caller, or PUT_ONE and its caller. -/
theorem over_cases {k : RoutineKind} {ls : List Label} (h : k.over ls = true) :
    (k = .command ∧ ls = []) ∨
    (∃ c, ls = [c] ∧ c.kind = .command ∧
      (k = .forceIdle ∧ c.awaitsForceIdle = true ∨ k = .putOne ∧ c.awaitsPutOne = true ∨
        k = .loadAndSend ∧ c.awaitsLoadAndSend = true)) ∨
    (∃ c, k = .loadAndSend ∧ ls = [.putOne .S3, c] ∧ c.kind = .command ∧ c.awaitsPutOne = true) := by
  unfold RoutineKind.over at h
  split at h
  · exact .inl ⟨rfl, rfl⟩
  · exact .inr (.inl ⟨_, rfl, kind_of_awaits (.inl h), .inl ⟨rfl, h⟩⟩)
  · exact .inr (.inl ⟨_, rfl, kind_of_awaits (.inr (.inl h)), .inr (.inl ⟨rfl, h⟩)⟩)
  · exact .inr (.inl ⟨_, rfl, kind_of_awaits (.inr (.inr h)), .inr (.inr ⟨rfl, h⟩)⟩)
  · exact .inr (.inr ⟨_, rfl, rfl, kind_of_awaits (.inr (.inl h)), h⟩)
  · cases h

/-- The frames below a shaped stack's top form a shaped stack. -/
theorem over_tail {k : RoutineKind} {c : Label} {ls : List Label} (h : k.over (c :: ls) = true) :
    c.kind.over ls = true := by
  rcases over_cases h with ⟨_, hls⟩ | ⟨d, hls, hd, _⟩ | ⟨d, _, hls, _, hd⟩
  · cases hls
  · obtain ⟨rfl, rfl⟩ := List.cons_eq_cons.1 hls
    rw [hd]
    rfl
  · obtain ⟨rfl, rfl⟩ := List.cons_eq_cons.1 hls
    exact hd

/-- The shape of a running sequencer's stack. -/
theorem shaped_run (f : Frame) (rest : List Frame) :
    (Seq.run f rest).shaped = f.label.kind.over (rest.map Frame.label) :=
  stackShape_cons _ _

/-- An idle sequencer is disciplined. -/
theorem disciplined_idle (h : t.seq = .idle) : t.Disciplined where
  shaped := by simp [h, Seq.shaped, stackShape]
  activity := by simp [h]

/-- A running sequencer is disciplined. -/
theorem disciplined_run (hseq : t.seq = .run f rest) (shape : f.label.kind.over (rest.map Frame.label) = true)
    (hf : f.activityOk t.initialized = true) (hrest : ∀ g ∈ rest, g.activityOk t.initialized = true) :
    t.Disciplined where
  shaped := by rw [hseq, shaped_run, shape]
  activity := by simpa [hseq] using ⟨hf, hrest⟩

/-- What the discipline says of a running sequencer. -/
theorem State.Disciplined.of_run (h : s.Disciplined) (hrun : s.seq = .run f rest) :
    f.label.kind.over (rest.map Frame.label) = true ∧ f.activityOk s.initialized = true ∧
      ∀ g ∈ rest, g.activityOk s.initialized = true := by
  have hshape := h.shaped
  rw [hrun, shaped_run] at hshape
  exact ⟨hshape, by simpa [hrun] using h.activity⟩

/-- The frames below the top still agree with `initialized` after an effect: the two steps that write it
stand at the bottom of the stack. -/
theorem SeqEffect.activityOk_below (e : SeqEffect f s u)
    (shape : f.label.kind.over (rest.map Frame.label) = true)
    (h : ∀ g ∈ rest, g.activityOk s.initialized = true) : ∀ g ∈ rest, g.activityOk u.initialized = true := by
  have bottom (hk : f.label.kind = .command) : rest = [] := by
    rw [hk] at shape
    exact List.map_eq_nil_iff.1 (over_command shape)
  rcases e.activation with ⟨hinit, _⟩ | hl | ⟨hl, _⟩
  · rw [hinit]
    exact h
  · simp [bottom (by rw [hl]; rfl)]
  · simp [bottom (by rw [hl]; rfl)]

/-- A step of the sequencer keeps the discipline. -/
theorem Stepped.disciplined (st : Stepped f rest s t) (hrun : s.seq = .run f rest) (h : s.Disciplined) :
    t.Disciplined := by
  obtain ⟨shape, hf, hrest⟩ := h.of_run hrun
  cases st with
  | stay => exact h
  | goto e n =>
    exact disciplined_run rfl (by rw [n.kind]; exact shape) (n.activity hf)
      (e.activityOk_below shape hrest)
  | call hg n hover =>
    exact disciplined_run rfl (hover _ shape) (hg.activityOk _)
      (List.forall_mem_cons.2 ⟨n.activity hf, hrest⟩)
  | @ret u v give e _ =>
    rcases returnSub_cases v give rest u with ⟨g, gs, rfl, eq⟩ | ⟨_, eq⟩ <;> rw [eq]
    · obtain ⟨hg, hgs⟩ := List.forall_mem_cons.1 (e.activityOk_below shape hrest)
      exact disciplined_run rfl (over_tail shape) hg hgs
    · exact disciplined_idle rfl
  | finish _ _ => exact disciplined_idle rfl
  | fault c => exact disciplined_idle rfl

/-- A disciplined stack has at most three frames. -/
theorem State.Disciplined.length_le (h : s.Disciplined) : s.seq.frames.length ≤ 3 := by
  cases hrun : s.seq with
  | idle => simp
  | run f rest =>
    obtain ⟨shape, _⟩ := h.of_run hrun
    have hlen : (rest.map Frame.label).length ≤ 2 := by
      rcases over_cases shape with ⟨_, e⟩ | ⟨_, e, _⟩ | ⟨_, _, e, _⟩ <;> simp [e]
    simpa using Nat.succ_le_succ hlen

/-! ## The inactive block (10_state.md R30) -/

/-- A frame of INIT. -/
def Label.isInit : Label → Bool
  | .init _ => true
  | _ => false

/-- A command at a step that works on a ring runs while the block is active, INIT apart. -/
theorem command_active_of_usesRings {ch : BitVec 5} (hk : f.label.kind = .command)
    (hl : f.label.usesRings = true) (hinit : f.label.isInit = false) (h : f.activityOk ch = true) : ch ≠ 0 := by
  obtain ⟨l, x⟩ := f
  dsimp only at hk hl hinit
  unfold Label.usesRings at hl
  split at hl
  case h_1 | h_2 => cases hinit
  case h_3 | h_4 | h_5 => exact of_decide_eq_true h
  case h_6 | h_7 | h_8 => cases hk
  case h_9 => cases hl

/-- A command that waits for PUT_ONE runs while the block is active. -/
theorem active_of_awaitsPutOne {ch : BitVec 5} (hl : f.label.awaitsPutOne = true)
    (h : f.activityOk ch = true) : ch ≠ 0 := by
  obtain ⟨l, x⟩ := f
  dsimp only at hl
  unfold Label.awaitsPutOne at hl
  split at hl
  case h_4 => cases hl
  all_goals exact of_decide_eq_true h

/-- A command that waits for LOAD_AND_SEND runs while the block is active. -/
theorem active_of_awaitsLoadAndSend {ch : BitVec 5} (hl : f.label.awaitsLoadAndSend = true)
    (h : f.activityOk ch = true) : ch ≠ 0 := by
  obtain ⟨l, x⟩ := f
  dsimp only at hl
  unfold Label.awaitsLoadAndSend at hl
  split at hl
  case h_3 => cases hl
  all_goals exact of_decide_eq_true h

/-- FORCE_IDLE works on no ring. -/
theorem kind_ne_forceIdle_of_usesRings {l : Label} (h : l.usesRings = true) : l.kind ≠ .forceIdle := by
  unfold Label.usesRings at h
  split at h
  case h_9 => cases h
  all_goals nofun

/-- Of a disciplined stack, a step that works on a ring is INIT's or the block is active: a subroutine
that does so was called by a command past its inactive check. -/
theorem State.Disciplined.active_of_usesRings (h : s.Disciplined) (hrun : s.seq = .run f rest)
    (hl : f.label.usesRings = true) (hinit : f.label.isInit = false) : s.initialized ≠ 0 := by
  obtain ⟨shape, hf, hrest⟩ := h.of_run hrun
  rcases over_cases shape with ⟨hk, _⟩ | ⟨c, hc, _, hcall⟩ | ⟨c, _, hc, _, hcall⟩
  · exact command_active_of_usesRings hk hl hinit hf
  · obtain ⟨g, rfl, rfl⟩ := List.map_eq_singleton_iff.1 hc
    have hg := hrest g (by simp)
    rcases hcall with ⟨hk, _⟩ | ⟨_, hcall⟩ | ⟨_, hcall⟩
    · exact absurd hk (kind_ne_forceIdle_of_usesRings hl)
    · exact active_of_awaitsPutOne hcall hg
    · exact active_of_awaitsLoadAndSend hcall hg
  · have hmem : c ∈ rest.map Frame.label := by simp [hc]
    obtain ⟨g, hg, rfl⟩ := List.mem_map.1 hmem
    exact active_of_awaitsPutOne hcall (hrest g hg)

end Sys2Proof.Machine

/-! What a turn of each agent can do, said once, and the statements about every step of the machine. -/

namespace Sys2Proof.Machine

variable {s t : State}

/-! ## Instructions -/

/-- The first step of a command routine, at which an accepted command starts (30_encoding.md R92). -/
def Label.isEntry : Label → Bool
  | .init .S1 | .terminate .S1 | .isActive .S1 | .available .S1 | .getByte .S1 | .getBuffer .S1
  | .flushRx .S1 | .ovfCount .S1 | .putByte .S1 | .putBuffer .S1 | .putString .S1 | .transmitNow .S1 => true
  | _ => false

/-- A command's first step may stand alone on the stack, with any locals and any `initialized`. -/
theorem entry_frame {l : Label} (hl : l.isEntry = true) (x : Locals) :
    l.kind = .command ∧ (∀ n, Frame.wf n ⟨l, x⟩ = true) ∧ ∀ ch, Frame.activityOk ch ⟨l, x⟩ = true := by
  unfold Label.isEntry at hl
  split at hl
  case h_13 => cases hl
  all_goals exact ⟨rfl, fun _ => rfl, fun _ => rfl⟩

/-- The handler of an event, by its vector (30_encoding.md R101; 60_exceptions.md R265). -/
inductive Handled (s : State) : Word → State → Prop
  | frameStart : Handled s 0 (takeEvent .frameStart onFrameStart s)
  | frameEnd : Handled s 1 (takeEvent .frameEnd onFrameEnd s)
  | txComplete : Handled s 2 (takeEvent .txComplete onTransmitComplete s)

/-- What an instruction can do: a host command arrives, a ring primitive leaves its result, a subroutine is
called, a chip command is written, or an event is taken. -/
inductive Executed (s : State) : State → Prop
  | command {l : Label} {x : Locals} (hl : l.isEntry = true) : Executed s (acceptCommand l x s)
  | ring {r : OpResult × State} (op : RingOp s r.2) : Executed s (latch r)
  | peek (sel : RingSel) : Executed s (latch (ringPeek sel s))
  | count (n : Nat) : Executed s (latch (.num n, s))
  | call {g : Frame} (hg : g.IsCall) : Executed s (callSub g s)
  | chip (v : Byte) : Executed s (chipWrite .trxCmd v s)
  | event {v : Word} {t : State} (h : Handled s v t) : Executed s t

/-- The meaning of every instruction, by its kind. -/
theorem exec_executed (i : Instr) (s : State) : ∃ t, exec i s = .next t ∧ Executed s t := by
  cases i
  case init | terminate | isactive | available | getbyte | getbuffer | flushrx | ovfcount | putbyte |
      putbuffer | putstring | transmitnow => exact ⟨_, rfl, .command rfl⟩
  case uopResetRx => exact ⟨_, rfl, .ring (.reset .rx)⟩
  case uopResetTx => exact ⟨_, rfl, .ring (.reset .tx)⟩
  case uopFlushRx => exact ⟨_, rfl, .ring (.flush .rx)⟩
  case uopFlushTx => exact ⟨_, rfl, .ring (.flush .tx)⟩
  case uopPopRx | uopPopTx => exact ⟨_, rfl, .ring (.pop _)⟩
  case uopPushRx | uopPushTx => exact ⟨_, rfl, .ring (.push _ _)⟩
  case uopPeekRx | uopPeekTx => exact ⟨_, rfl, .peek _⟩
  case uopCapremRx | uopCapremTx | uopIsemptyRx | uopIsemptyTx => exact ⟨_, rfl, .count _⟩
  case uopPushbRx | uopPushbTx => exact ⟨_, rfl, .call (.pushBlocking _ _)⟩
  case trxTxStart | trxForceIdle | trxListen | trxIdle | trxReady | trxSleep | trxWake =>
    exact ⟨_, rfl, .chip _⟩
  case seqForceIdle => exact ⟨_, rfl, .call .forceIdle⟩
  case seqLoadAndSend => exact ⟨_, rfl, .call .loadAndSend⟩
  case seqPutOne => exact ⟨_, rfl, .call (.putOne _)⟩
  case evtFrameStart => exact ⟨_, rfl, .event .frameStart⟩
  case evtFrameEnd => exact ⟨_, rfl, .event .frameEnd⟩
  case evtTxComplete => exact ⟨_, rfl, .event .txComplete⟩

/-- A word of the host's format decodes to a host command (R93). -/
theorem format_of_decode_hcmd {w : Word} {i : Instr} (h : decode .hcmd w = .ok i) : i.format = .hcmd := by
  simp only [decode, reservedBitsZero, if_true] at h
  unfold decodeHcmd at h
  split at h <;> cases h <;> rfl

/-- A host command is its accepted write (R92). -/
theorem exec_hcmd {i : Instr} (hi : i.format = .hcmd) (s : State) :
    ∃ l x, l.isEntry = true ∧ exec i s = .next (acceptCommand l x s) := by
  cases i
  case init | terminate | isactive | available | getbyte | getbuffer | flushrx | ovfcount | putbyte |
      putbuffer | putstring | transmitnow => exact ⟨_, _, rfl, rfl⟩
  all_goals cases hi

/-! ## Turns -/

/-- What a step of the host can do. -/
inductive HostResult (s : State) : HostAccess → State → Prop
  | command {a : HostAccess} {l : Label} {x : Locals} (hl : l.isEntry = true) :
    HostResult s a (acceptCommand l x s)
  | rejected {a : HostAccess} (c : FaultCode) : HostResult s a { s with status := s.status.raise c }
  | addr (v : Word) : HostResult s (.write 4 0x04 v) { s with addr := v }
  | read {a : HostAccess} (n : Nat) (w : Word) : HostResult s a { s with draws := n, busData := w }
  | misaligned {a : HostAccess} : HostResult s a { s with refused := true }
  | memory {a : HostAccess} (addr : Word) (v : Byte) : HostResult s a (putHost addr.toNat v s)
  | ignored {a : HostAccess} : HostResult s a s

/-- A register read takes no more than draws. -/
theorem hostReadReg_draws (offset : Nat) (s : State) :
    ∃ n, (hostReadReg offset s).2 = { s with draws := n } := by
  unfold hostReadReg
  split
  case h_4 =>
    obtain ⟨d, hd⟩ := drawn_draws (if chipState s = stListening then s.chip.qualityLive else none) s
    exact ⟨_, hd⟩
  all_goals exact ⟨s.draws, rfl⟩

/-- A step of the host, access by access (R90, R92; 20_memory.md R73, R75). -/
theorem hostStep_cases {a : HostAccess} (h : hostStep a s = .next t) : HostResult s a t := by
  cases a with
  | read bytes offset =>
    simp only [hostStep] at h
    split at h <;> obtain rfl := Host.Outcome.next.inj h
    · obtain ⟨n, hn⟩ := hostReadReg_draws offset s
      rw [hn]
      exact .read _ _
    · exact .misaligned
  | memWrite addr v =>
    obtain rfl := Host.Outcome.next.inj h
    exact .memory addr v
  | write bytes offset v =>
    simp only [hostStep] at h
    split at h
    · rename_i hal
      have hbytes : bytes = 4 := by
        simp only [hostAligned, Bool.and_eq_true, beq_iff_eq] at hal
        exact hal.1
      unfold hostWriteReg at h
      split at h
      · unfold hostWriteCmd at h
        split at h
        · rename_i i hi
          obtain ⟨l, x, hl, hexec⟩ := exec_hcmd (format_of_decode_hcmd hi) s
          obtain rfl := Host.Outcome.next.inj (hexec.symm.trans h)
          exact .command hl
        · obtain rfl := Host.Outcome.next.inj h
          exact .rejected _
      · obtain rfl := Host.Outcome.next.inj h
        rw [hbytes]
        exact .addr v
      · obtain rfl := Host.Outcome.next.inj h
        exact .ignored
    · obtain rfl := Host.Outcome.next.inj h
      exact .misaligned

/-- A step of the block: the handler of the highest latch, else the sequencer (R265, R267). -/
theorem blockStep_cases (h : blockStep s = .next t) :
    (pendingVector s.pend = none ∧ seqStep s = .next t) ∨
      ∃ v, pendingVector s.pend = some v ∧ Handled s v t := by
  unfold blockStep at h
  split at h
  · rename_i v hv
    refine .inr ⟨v, hv, ?_⟩
    unfold pendingVector at hv
    split at hv
    · cases hv
      obtain rfl := Host.Outcome.next.inj h
      exact .frameStart
    · split at hv
      · cases hv
        obtain rfl := Host.Outcome.next.inj h
        exact .frameEnd
      · split at hv
        · cases hv
          obtain rfl := Host.Outcome.next.inj h
          exact .txComplete
        · cases hv
  · rename_i hp
    exact .inl ⟨hp, h⟩

/-- What a turn can do. -/
inductive TurnTaken (s : State) : Turn → State → Prop
  | sequencer {t : State} (hp : pendingVector s.pend = none) (h : seqStep s = .next t) :
    TurnTaken s .block t
  | handler {v : Word} {t : State} (hp : pendingVector s.pend = some v) (h : Handled s v t) :
    TurnTaken s .block t
  | host {a : HostAccess} {t : State} (h : HostResult s a t) : TurnTaken s (.host a) t
  | chip (c : ChipStep) : TurnTaken s (.chip c) (chipStep c s)
  | air (a : AirStep) : TurnTaken s (.air a) (airStep a s)
  | issue {f : Format} {w : Word} {t : State} (h : Executed s t) : TurnTaken s (.issue f w) t

/-- A turn, agent by agent (20_memory.md R62). -/
theorem takeTurn_cases {a : Turn} (h : takeTurn a s = .next t) : TurnTaken s a t := by
  cases a with
  | block =>
    rcases blockStep_cases h with ⟨hp, hseq⟩ | ⟨v, hp, hv⟩
    · exact .sequencer hp hseq
    · exact .handler hp hv
  | host a => exact .host (hostStep_cases h)
  | chip c =>
    obtain rfl := Host.Outcome.next.inj h
    exact .chip c
  | air a =>
    obtain rfl := Host.Outcome.next.inj h
    exact .air a
  | issue f w =>
    simp only [takeTurn, issueCode] at h
    split at h
    · rename_i i _
      obtain ⟨u, hu, he⟩ := exec_executed i s
      obtain rfl := Host.Outcome.next.inj (hu.symm.trans h)
      exact .issue he
    · cases h

/-- A step is the turn that is next, taken in the state without it. -/
theorem step_cases (h : step s = .next t) :
    ∃ ts, TurnTaken { s with agenda := ts } (nextTurn s).1 t := by
  unfold step at h
  split at h
  · have hts : ∃ ts, (nextTurn s).2 = { s with agenda := ts } := by
      unfold nextTurn
      split
      · exact ⟨s.agenda, rfl⟩
      · exact ⟨_, rfl⟩
    obtain ⟨ts, e⟩ := hts
    rw [e] at h
    exact ⟨ts, takeTurn_cases h⟩
  · cases h

/-! ## The invariant -/

/-- A handler keeps the data. -/
theorem Handled.soundData {v : Word} (h : Handled s v t) (hs : s.SoundData) : t.SoundData := by
  cases h with
  | frameStart => exact (soundData_clearLatch hs .frameStart).congr (by simp [takeEvent, handlerReturn])
  | frameEnd => exact soundData_onFrameEnd (soundData_clearLatch hs .frameEnd)
  | txComplete => exact soundData_clearLatch hs .txComplete

/-- onFrameEnd leaves `BUSY`. -/
theorem onFrameEnd_busy (s : State) : (onFrameEnd s).status.busy = s.status.busy := by
  unfold onFrameEnd
  split
  · dsimp only
    split <;> simp
  · rfl

/-- A handler leaves the sequencer, its `BUSY` bit and the block's registers (60_exceptions.md R269). -/
theorem Handled.fields {v : Word} (h : Handled s v t) :
    t.seq = s.seq ∧ t.status.busy = s.status.busy ∧ t.maxPayload = s.maxPayload ∧
      t.initialized = s.initialized ∧ t.txIdle = s.txIdle ∧ t.addr = s.addr ∧ t.result = s.result := by
  cases h with
  | frameStart => simp [takeEvent, handlerReturn]
  | frameEnd => simp [takeEvent, handlerReturn, onFrameEnd_busy]
  | txComplete => simp [takeEvent, handlerReturn, onTransmitComplete]

/-- A state that differs in nothing the control half reads keeps it. -/
theorem State.SoundControl.congr (h : s.SoundControl) (hseq : t.seq = s.seq)
    (hbusy : t.status.busy = s.status.busy) (hpay : t.maxPayload = s.maxPayload) : t.SoundControl where
  busy := by rw [hbusy, hseq]; exact h.busy
  frames := by rw [hseq, hpay]; exact h.frames

/-- A host command that arrives is lost, or starts a routine in bounds. -/
theorem soundControl_acceptCommand (h : s.SoundControl) {l : Label} (hl : l.isEntry = true) (x : Locals) :
    (acceptCommand l x s).SoundControl := by
  rcases acceptCommand_cases l x s with ⟨_, e⟩ | ⟨_, e⟩ <;> rw [e]
  · exact h.congr rfl (by simp) rfl
  · obtain ⟨_, hwf, _⟩ := entry_frame hl { x with a32 := s.addr }
    exact soundControl_run rfl rfl (hwf _) (by simp)

/-- An issued call starts a routine in bounds. -/
theorem soundControl_callSub (h : s.SoundControl) {g : Frame} (hg : g.IsCall) :
    (callSub g s).SoundControl := by
  rcases callSub_cases g s with ⟨top, rest, hrun, e⟩ | ⟨_, e⟩ <;> rw [e]
  · refine soundControl_run rfl (h.busy.2 (by simp [hrun])) (hg.wf _) ?_
    simpa [hrun] using h.frames
  · exact soundControl_run rfl rfl (hg.wf _) (by simp)

/-- Every instruction keeps the invariant. -/
theorem Executed.inv (h : Executed s t) (hs : s.Inv) : t.Inv := by
  obtain ⟨hd, hc⟩ := (inv_iff s).1 hs
  rw [inv_iff]
  cases h with
  | command hl => exact ⟨soundData_acceptCommand hd _ _, soundControl_acceptCommand hc hl _⟩
  | @ring r op =>
    obtain ⟨hpay, _, _, _, _, _, _, _, _, _, _, hstatus, hseq⟩ := op.fields
    exact ⟨soundData_latch (op.soundData hd), hc.congr (by simp [hseq]) (by simp [hstatus]) (by simp [hpay])⟩
  | peek sel => exact ⟨hd.congr (by simp), hc.congr (by simp) (by simp) (by simp)⟩
  | count n => exact ⟨hd.congr (by simp), hc.congr (by simp) (by simp) (by simp)⟩
  | call hg => exact ⟨soundData_callSub hd _, soundControl_callSub hc hg⟩
  | chip v => exact ⟨soundData_chipWrite hd _ _, hc.congr (by simp) (by simp) (by simp)⟩
  | event h =>
    obtain ⟨hseq, hbusy, hpay, _⟩ := h.fields
    exact ⟨h.soundData hd, hc.congr hseq hbusy hpay⟩

/-- A step of the host keeps the invariant. -/
theorem HostResult.inv {a : HostAccess} (h : HostResult s a t) (hs : s.Inv) : t.Inv := by
  obtain ⟨hd, hc⟩ := (inv_iff s).1 hs
  rw [inv_iff]
  cases h with
  | command hl => exact ⟨soundData_acceptCommand hd _ _, soundControl_acceptCommand hc hl _⟩
  | rejected c => exact ⟨hd.congr (by simp), hc.congr rfl (by simp) rfl⟩
  | memory addr v => exact ⟨soundData_putHost hd v addr.isLt, hc.congr (by simp) (by simp) (by simp)⟩
  | ignored => exact ⟨hd, hc⟩
  | _ => exact ⟨hd.congr (by simp), hc.congr rfl rfl rfl⟩

/-- A step of the sequencer keeps the invariant. -/
theorem seqStep_inv (h : seqStep s = .next t) (hs : s.Inv) : t.Inv := by
  rcases seqStep_cases h with ⟨_, rfl⟩ | ⟨f, rest, hrun, st⟩
  · exact hs
  · obtain ⟨hd, hc⟩ := (inv_iff s).1 hs
    have hf : f.wf s.maxPayload = true := hc.frames f (by simp [hrun])
    exact (inv_iff t).2 ⟨st.soundData hd hf, st.soundControl hrun hc⟩

/-- Every turn keeps the invariant. -/
theorem TurnTaken.inv {a : Turn} (h : TurnTaken s a t) (hs : s.Inv) : t.Inv := by
  cases h with
  | sequencer _ h => exact seqStep_inv h hs
  | handler _ h => exact (Executed.event h).inv hs
  | host h => exact h.inv hs
  | issue h => exact h.inv hs
  | chip c =>
    obtain ⟨hd, hc⟩ := (inv_iff s).1 hs
    exact (inv_iff _).2 ⟨soundData_chipStep hd c, hc.congr (by simp) (by simp) (by simp)⟩
  | air a =>
    obtain ⟨hd, hc⟩ := (inv_iff s).1 hs
    exact (inv_iff _).2 ⟨soundData_airStep hd a, hc.congr (by simp) (by simp) (by simp)⟩

/-- Settles O52: dropping the turn from the agenda keeps the invariant, and so does the turn. -/
theorem stepKeepsTheInvariant : Obligations.StepKeepsTheInvariant := by
  unfold Obligations.StepKeepsTheInvariant
  intro s t hs h
  obtain ⟨ts, turn⟩ := step_cases h
  obtain ⟨hd, hc⟩ := (inv_iff s).1 hs
  exact turn.inv ((inv_iff _).2 ⟨hd.congr (by simp), hc.congr rfl rfl rfl⟩)

/-- The power-up state of a legal parameter set meets the invariant and is idle. -/
theorem powerUp_sound_idle {p : Params} (hp : p.legal = true) (m : ChipModel) (d : PowerUpDraws) :
    (State.powerUp p m d).Inv ∧ (State.powerUp p m d).Disciplined := by
  obtain ⟨hrx, hrx', htx, htx', hpay, hpay', hflush, hflush'⟩ := (params_legal_iff p).1 hp
  refine ⟨(inv_iff _).2 ⟨?_, soundControl_idle rfl rfl⟩, disciplined_idle rfl⟩
  refine ⟨(state_legal_iff _).2 ⟨?_, ?_, hpay, hpay', hflush, hflush'⟩, powerUp_sound hrx hrx',
    powerUp_sound htx htx', ⟨rfl, rfl⟩, ⟨rfl, rfl⟩, Nat.zero_le _, ?_⟩
  · exact hrx.trans_eq (powerUp_size hrx').symm
  · exact htx.trans_eq (powerUp_size htx').symm
  · intro e he
    cases e <;> cases he

/-- Settles O53: the reset state is a power-up state. -/
theorem powerUpMeetsTheInvariant : Obligations.PowerUpMeetsTheInvariant := by
  unfold Obligations.PowerUpMeetsTheInvariant
  have hreset := powerUp_sound_idle (p := Params.default) (by decide) .ref PowerUpDraws.named
  exact ⟨hreset.1, hreset.2, fun p m d hp => powerUp_sound_idle hp m d⟩

/-! ## The discipline -/

/-- A state that differs in nothing the discipline reads keeps it. -/
theorem State.Disciplined.congr (h : s.Disciplined) (hseq : t.seq = s.seq)
    (hinit : t.initialized = s.initialized) : t.Disciplined where
  shaped := by rw [hseq]; exact h.shaped
  activity := by rw [hseq, hinit]; exact h.activity

/-- A host command that arrives is lost, or stands alone on the stack. -/
theorem disciplined_acceptCommand (h : s.Disciplined) {l : Label} (hl : l.isEntry = true) (x : Locals) :
    (acceptCommand l x s).Disciplined := by
  rcases acceptCommand_cases l x s with ⟨_, e⟩ | ⟨_, e⟩ <;> rw [e]
  · exact h.congr rfl rfl
  · obtain ⟨hk, _, hact⟩ := entry_frame hl { x with a32 := s.addr }
    exact disciplined_run rfl (by rw [hk]; rfl) (hact _) (by simp)

/-- Every turn but an issued code keeps the discipline. -/
theorem TurnTaken.disciplined {a : Turn} (h : TurnTaken s a t) (ha : ∀ f w, a ≠ .issue f w)
    (hs : s.Disciplined) : t.Disciplined := by
  cases h with
  | sequencer _ h =>
    rcases seqStep_cases h with ⟨_, rfl⟩ | ⟨f, rest, hrun, st⟩
    · exact hs
    · exact st.disciplined hrun hs
  | handler _ h =>
    obtain ⟨hseq, _, _, hinit, _⟩ := h.fields
    exact hs.congr hseq hinit
  | host h =>
    cases h with
    | command hl => exact disciplined_acceptCommand hs hl _
    | memory addr v => exact hs.congr (by simp) (by simp)
    | _ => exact hs.congr rfl rfl
  | chip c => exact hs.congr (by simp) (by simp)
  | air a => exact hs.congr (by simp) (by simp)
  | issue _ => exact absurd rfl (ha _ _)

/-- The next turn issues no code. -/
theorem noIssueNext_iff (s : State) : s.noIssueNext = true ↔ ∀ f w, (nextTurn s).1 ≠ .issue f w := by
  unfold State.noIssueNext
  cases (nextTurn s).1 <;> simp

/-- Settles O55: the next state is disciplined, and a disciplined stack has at most three frames. -/
theorem stepKeepsTheDiscipline : Obligations.StepKeepsTheDiscipline := by
  unfold Obligations.StepKeepsTheDiscipline
  intro s t hs hissue h
  obtain ⟨ts, turn⟩ := step_cases h
  have ht : t.Disciplined := turn.disciplined ((noIssueNext_iff s).1 hissue) (hs.congr rfl rfl)
  exact ⟨ht, ht.length_le⟩

/-! ## Who writes what -/

/-- A handler but onFrameEnd leaves `rxOverflow` (R27). -/
theorem Handled.overflow {v : Word} (h : Handled s v t) : t.rxOverflow = s.rxOverflow ∨ v = 1 := by
  cases h with
  | frameStart => exact .inl (by simp [takeEvent, handlerReturn])
  | frameEnd => exact .inr rfl
  | txComplete => exact .inl rfl

/-- A step of the host writes `ADDR` at its offset alone, and no other register the block keeps (R35). -/
theorem HostResult.fields {a : HostAccess} (h : HostResult s a t) :
    t.initialized = s.initialized ∧ t.txIdle = s.txIdle ∧ t.rxOverflow = s.rxOverflow ∧
      t.result = s.result ∧ (t.addr = s.addr ∨ a = .write 4 0x04 t.addr) := by
  cases h with
  | addr v => exact ⟨rfl, rfl, rfl, rfl, .inr rfl⟩
  | _ => simp

/-- A step that issues no code is the step of the sequencer's top frame, or writes no register of the
block but `ADDR`, by the host, and `rxOverflow`, by onFrameEnd. -/
theorem step_writers (hissue : s.noIssueNext = true) (h : step s = .next t) :
    (∃ ts f rest, s.seq = .run f rest ∧ s.seqTurn = some f.label ∧
      Stepped f rest { s with agenda := ts } t) ∨
    (s.seqTurn = none ∧ t.initialized = s.initialized ∧ t.txIdle = s.txIdle ∧ t.result = s.result ∧
      (t.addr = s.addr ∨ (nextTurn s).1 = .host (.write 4 0x04 t.addr)) ∧
      (t.rxOverflow = s.rxOverflow ∨ (nextTurn s).1 = .block ∧ pendingVector s.pend = some 1)) := by
  obtain ⟨ts, turn⟩ := step_cases h
  have hno := (noIssueNext_iff s).1 hissue
  generalize hturn : (nextTurn s).1 = a at turn hno
  cases turn with
  | sequencer hp hseq =>
    have hp : pendingVector s.pend = none := hp
    rcases seqStep_cases hseq with ⟨hidle, rfl⟩ | ⟨f, rest, hrun, st⟩
    · have hidle : s.seq = .idle := hidle
      exact .inr ⟨by simp [State.seqTurn, State.topLabel, hturn, hp, hidle], rfl, rfl, rfl,
        .inl rfl, .inl rfl⟩
    · have hrun : s.seq = .run f rest := hrun
      exact .inl ⟨ts, f, rest, hrun, by simp [State.seqTurn, State.topLabel, hturn, hp, hrun], st⟩
  | @handler v _ hp hv =>
    have hp : pendingVector s.pend = some v := hp
    obtain ⟨_, _, _, hinit, hidle, haddr, hresult⟩ := hv.fields
    refine .inr ⟨by simp [State.seqTurn, hturn, hp], hinit, hidle, hresult, .inl haddr, ?_⟩
    exact hv.overflow.imp id fun hv1 => ⟨rfl, by rw [hp, hv1]⟩
  | host hh =>
    obtain ⟨hinit, hidle, hover, hresult, haddr⟩ := hh.fields
    exact .inr ⟨by simp [State.seqTurn, hturn], hinit, hidle, hresult,
      haddr.imp id fun ha => by rw [← ha], .inl hover⟩
  | chip c => exact .inr ⟨by simp [State.seqTurn, hturn], by simp⟩
  | air a => exact .inr ⟨by simp [State.seqTurn, hturn], by simp⟩
  | issue _ => exact absurd rfl (hno _ _)

/-- Settles O58: in a step of the sequencer the effect names the writer, and `RESULT` is written where a
command ends; any other step writes `ADDR` or `rxOverflow` alone. -/
theorem registersHaveTheirWriters : Obligations.RegistersHaveTheirWriters := by
  unfold Obligations.RegistersHaveTheirWriters
  intro s t hissue h
  rcases step_writers hissue h with ⟨ts, f, rest, _, hlabel, st⟩ | ⟨_, hinit, hidle, hresult, haddr, hover⟩
  · obtain ⟨u, e, hinit, hidle, hover, haddr, _, _, hresult⟩ := st.effect
    obtain ⟨_, _, _, hua, hur⟩ := e.control
    simp only [hlabel, Option.some.injEq]
    refine ⟨fun hne => ?_, fun hne => ?_, fun hne => ?_, fun hne => ?_⟩
    · rw [hinit, hidle] at hne
      rcases e.activation with ⟨hu, hu'⟩ | hl | ⟨hl, _⟩
      · exact (hne.elim (· hu) (· hu')).elim
      · exact .inl hl
      · exact .inr hl
    · rw [hover] at hne
      rcases e.overflow with hu | hl | hl | hl
      · exact absurd hu hne
      · exact .inl hl
      · exact .inr (.inl hl)
      · exact .inr (.inr (.inl hl))
    · exact absurd (haddr.trans hua) hne
    · rcases hresult with hr | ⟨hseq, hbusy, hcommand⟩
      · exact absurd (hr.trans hur) hne
      · exact ⟨hseq, hbusy, f.label, rfl, hcommand⟩
  · refine ⟨fun hne => ?_, fun hne => ?_, fun hne => ?_, fun hne => absurd hresult hne⟩
    · exact (hne.elim (· hinit) (· hidle)).elim
    · exact .inr (.inr (.inr (hover.resolve_left hne)))
    · exact haddr.resolve_left hne

/-- Where no frame of INIT is on the stack, the top frame is none. -/
theorem isInit_of_runsInit {f : Frame} {rest : List Frame} (h : s.runsInit = false)
    (hrun : s.seq = .run f rest) : f.label.isInit = false := by
  unfold State.runsInit at h
  rw [hrun, frames_run, List.any_cons, Bool.or_eq_false_iff] at h
  exact h.1

/-- Settles O59: a step that works on a ring while INIT does not run is one of an active block; of the two
writers of `initialized`, INIT runs while it is 0 and TERMINATE writes 0. -/
theorem inactivityIsRespected : Obligations.InactivityIsRespected := by
  unfold Obligations.InactivityIsRespected
  intro s t hs hissue h
  rcases step_writers hissue h with ⟨ts, f, rest, hrun, _, st⟩ | ⟨hnone, hinit, _⟩
  · obtain ⟨u, e, hinit, _, _, _, hrx, htx, _⟩ := st.effect
    refine ⟨fun h0 hnoInit _ => ?_, fun hne => ?_⟩
    · rcases e.rings with ⟨hurx, hutx⟩ | hl
      · exact ⟨hrx.trans hurx, htx.trans hutx⟩
      · exact absurd h0 (hs.active_of_usesRings hrun hl (isInit_of_runsInit hnoInit hrun))
    · rcases e.activation with ⟨hu, _⟩ | hl | ⟨_, hu⟩
      · exact absurd (hinit.trans hu) hne
      · obtain ⟨_, hf, _⟩ := hs.of_run hrun
        simp only [Frame.activityOk, hl, decide_eq_true_eq] at hf
        exact .inl hf
      · exact .inr (hinit.trans hu)
  · exact ⟨fun _ _ hsome => absurd hnone hsome, fun hne => absurd hinit hne⟩

end Sys2Proof.Machine

/-! What the host's steps on memory and on the port do (20_memory.md R60, R73, R75), and an `Await` whose
condition is false (R69). -/

namespace Sys2Proof.Machine

/-! ## Host memory -/

/-- The bytes of host memory after one of them was put. -/
theorem hostByteAt_putHost (a b : Nat) (v : Byte) (s : State) :
    hostByteAt (putHost a v s) b = if b = a then v else hostByteAt s b := by
  simp only [hostByteAt, putHost_fields, read_write]
  by_cases h : b = a
  · simp [h]
  · simp [h]

/-- Settles O9: the step is `putHost`, whose bytes `hostByteAt_putHost` tells. -/
theorem hostWritesItsMemory : Obligations.HostWritesItsMemory := by
  unfold Obligations.HostWritesItsMemory
  intro s a v
  refine ⟨putHost a.toNat v s, rfl, rfl, ?written, ?others⟩
  case written => rw [hostByteAt_putHost, if_pos rfl]
  case others => intro b hb; rw [hostByteAt_putHost, if_neg hb]

/-! ## Accesses of the host port -/

/-- The accesses that have a meaning. -/
theorem hostAligned_iff (bytes off : Nat) : hostAligned bytes off = true ↔ bytes = 4 ∧ off % 4 = 0 := by
  simp [hostAligned]

/-- Settles O10: neither access passes the check that stands before its meaning. -/
theorem misalignedHostAccessIsRefused : Obligations.MisalignedHostAccessIsRefused := by
  unfold Obligations.MisalignedHostAccessIsRefused
  intro s bytes off v h
  have hmis : ¬ hostAligned bytes off = true := by
    rw [hostAligned_iff, not_and_or]
    exact h
  exact ⟨if_neg hmis, if_neg hmis⟩

/-! ## Awaits -/

/-- While a routine runs, an undisturbed step is that of the top frame. -/
theorem step_undisturbed_run {s : State} {f : Frame} {rest : List Frame} (hquiet : s.undisturbed = true)
    (hseq : s.seq = .run f rest) : step s = stepFrame f rest s := by
  rw [step_undisturbed hquiet, seqStep, hseq]

/-- INIT waits at S5 while the chip reports `BUSY` (41_radio_fsm.md R150). -/
theorem stepInit_S5_busy {s : State} (h : chipState s = stBusy) (x : Locals) (rest : List Frame) :
    stepInit .S5 x rest s = .next s :=
  congrArg Host.Outcome.next (if_pos h)

/-- LOAD_AND_SEND waits at S2 until the chip reports `READY_TO_SEND` (43_frame_assembler.md R200). -/
theorem stepLoadAndSend_S2_not_ready {s : State} (h : chipState s ≠ stReady) (x : Locals)
    (rest : List Frame) : stepLoadAndSend .S2 x rest s = .next s :=
  congrArg Host.Outcome.next (if_neg h)

/-- Settles O34: the undisturbed step is that of the top frame, which waits. -/
theorem awaitHoldsTheSequencer : Obligations.AwaitHoldsTheSequencer := by
  unfold Obligations.AwaitHoldsTheSequencer
  intro s x rest hquiet
  constructor
  · intro hseq hbusy
    exact (step_undisturbed_run hquiet hseq).trans (stepInit_S5_busy hbusy x rest)
  · intro hseq hready
    exact (step_undisturbed_run hquiet hseq).trans (stepLoadAndSend_S2_not_ready hready x rest)

end Sys2Proof.Machine

/-! The decoder against the encoder (30_encoding.md R91, R93, R94, R97, R100, R101, R103). -/

namespace Sys2Proof

/-! ## What the encoder writes is read back -/

/-- A host command has no reserved bit, so its decoder is the opcode map of R93. -/
theorem decode_hcmd (w : Word) : decode .hcmd w = decodeHcmd w := rfl

/-- The encoder leaves the reserved bits of its format 0 (R97, R100, R101). -/
theorem reservedBitsZero_encode (i : Instr) : reservedBitsZero i.format (encode i) = true := by
  cases i <;> rfl

/-- The fields a host command uses are read back by `opcField`, `arg8Field` and `arg16Field`. -/
theorem decodeHcmd_encode {i : Instr} (h : i.format = .hcmd) : decodeHcmd (encode i) = .ok i := by
  cases i
  case init | terminate | isactive | available | getbyte | getbuffer | flushrx | ovfcount | putbyte |
      putbuffer | putstring | transmitnow => simp [encode, decodeHcmd]
  all_goals cases h

/-- The `UOP` codes are read back (R100). -/
theorem decodeUop_encode {i : Instr} (h : i.format = .uop) : decodeUop (encode i).toNat = .ok i := by
  cases i <;> cases h <;> rfl

/-- The `TRX_CMD` codes are read back (R97). -/
theorem decodeTrxcmd_encode {i : Instr} (h : i.format = .trxcmd) :
    decodeTrxcmd (encode i).toNat = .ok i := by
  cases i <;> cases h <;> rfl

/-- The subroutine ids are read back (R101). -/
theorem decodeSub_encode {i : Instr} (h : i.format = .sub) : decodeSub (encode i).toNat = .ok i := by
  cases i <;> cases h <;> rfl

/-- The event vectors are read back (R101). -/
theorem decodeEvt_encode {i : Instr} (h : i.format = .evt) : decodeEvt (encode i).toNat = .ok i := by
  cases i <;> cases h <;> rfl

/-- The decoder reads back every encoded instruction. No operand is excluded: `Instr.wellFormed` holds
of every term, since the operand types are the fields' own widths. -/
theorem decode_encode (i : Instr) : decode i.format (encode i) = .ok i := by
  have hbits := reservedBitsZero_encode i
  cases hf : i.format <;> rw [hf] at hbits <;> rw [decode, if_pos hbits]
  case hcmd => exact decodeHcmd_encode hf
  case uop => exact decodeUop_encode hf
  case trxcmd => exact decodeTrxcmd_encode hf
  case sub => exact decodeSub_encode hf
  case evt => exact decodeEvt_encode hf

/-- Settles O1: `decode_encode`, format by format. -/
theorem decodeEncodeRoundTrip : Obligations.DecodeEncodeRoundTrip := by
  unfold Obligations.DecodeEncodeRoundTrip
  intro i _
  exact decode_encode i

/-! ## What decodes re-encodes -/

/-- A host command is decoded from a word with its own opcode (R93). -/
theorem opcField_encode_of_decodeHcmd {w : Word} {i : Instr} (h : decodeHcmd w = .ok i) :
    opcField (encode i) = opcField w := by
  apply BitVec.eq_of_toNat_eq
  unfold decodeHcmd at h
  split at h <;> cases h <;> simp only [encode, opcField_cmdWord, *] <;> rfl

/-- Each `UOP` code names one primitive on one ring (R100). -/
theorem encode_of_decodeUop {n : Nat} {i : Instr} (h : decodeUop n = .ok i) :
    i.format = .uop ∧ (encode i).toNat = n := by
  unfold decodeUop at h
  split at h <;> cases h <;> exact ⟨rfl, rfl⟩

/-- Each `TRX_CMD` code names one chip command (R97). -/
theorem encode_of_decodeTrxcmd {n : Nat} {i : Instr} (h : decodeTrxcmd n = .ok i) :
    i.format = .trxcmd ∧ (encode i).toNat = n := by
  unfold decodeTrxcmd at h
  split at h <;> cases h <;> exact ⟨rfl, rfl⟩

/-- Each id names one subroutine (R101). -/
theorem encode_of_decodeSub {n : Nat} {i : Instr} (h : decodeSub n = .ok i) :
    i.format = .sub ∧ (encode i).toNat = n := by
  unfold decodeSub at h
  split at h <;> cases h <;> exact ⟨rfl, rfl⟩

/-- Each vector names one event (R101). -/
theorem encode_of_decodeEvt {n : Nat} {i : Instr} (h : decodeEvt n = .ok i) :
    i.format = .evt ∧ (encode i).toNat = n := by
  unfold decodeEvt at h
  split at h <;> cases h <;> exact ⟨rfl, rfl⟩

/-- An internal code is the one word of the instruction it decodes to (R97, R100, R101). -/
theorem encode_of_decode_internal {f : Format} {w : Word} {i : Instr} (hf : f ≠ .hcmd)
    (h : decode f w = .ok i) : i.format = f ∧ (encode i).toNat = w.toNat := by
  unfold decode at h
  split at h
  · cases f
    case hcmd => exact absurd rfl hf
    case uop => exact encode_of_decodeUop h
    case trxcmd => exact encode_of_decodeTrxcmd h
    case sub => exact encode_of_decodeSub h
    case evt => exact encode_of_decodeEvt h
  · cases h

/-- Settles O2: by format, `opcField_encode_of_decodeHcmd` and `encode_of_decode_internal`. -/
theorem decodedCodeReencodes : Obligations.DecodedCodeReencodes := by
  unfold Obligations.DecodedCodeReencodes
  intro f w i h
  by_cases hf : f = .hcmd
  · subst hf
    exact ⟨Machine.format_of_decode_hcmd h, absurd rfl, fun _ => opcField_encode_of_decodeHcmd h⟩
  · obtain ⟨hformat, hcode⟩ := encode_of_decode_internal hf h
    exact ⟨hformat, fun _ => BitVec.eq_of_toNat_eq hcode, fun h => absurd h hf⟩

/-! ## Opcodes that are none, and fields that are not used -/

/-- An opcode in one of the four ranges R94 calls unassigned is rejected by name. -/
theorem decode_hcmd_unassigned {w : Word}
    (h : (opcField w).toNat = 0x00 ∨ (0x04 ≤ (opcField w).toNat ∧ (opcField w).toNat ≤ 0x0F) ∨
      (0x15 ≤ (opcField w).toNat ∧ (opcField w).toNat ≤ 0x1F) ∨ 0x24 ≤ (opcField w).toNat) :
    decode .hcmd w = .error (.illegalOpcode (opcField w)) := by
  rw [decode_hcmd, decodeHcmd]
  split
  case h_13 => rfl
  all_goals omega

/-- `ARG8` is read for INIT and PUTBYTE alone (R93, R103). -/
theorem decode_hcmd_arg8_unused {w v : Word} (hopc : opcField w = opcField v)
    (h16 : arg16Field w = arg16Field v) (hinit : opcField v ≠ 0x01) (hput : opcField v ≠ 0x20) :
    decode .hcmd w = decode .hcmd v := by
  simp only [decode_hcmd, decodeHcmd, hopc, h16]
  split
  case h_1 h => exact absurd (BitVec.eq_of_toNat_eq h) hinit
  case h_9 h => exact absurd (BitVec.eq_of_toNat_eq h) hput
  all_goals rfl

/-- `ARG16` is read for GETBUFFER and PUTBUFFER alone (R93, R103). -/
theorem decode_hcmd_arg16_unused {w v : Word} (hopc : opcField w = opcField v)
    (h8 : arg8Field w = arg8Field v) (hget : opcField v ≠ 0x12) (hput : opcField v ≠ 0x21) :
    decode .hcmd w = decode .hcmd v := by
  simp only [decode_hcmd, decodeHcmd, hopc, h8]
  split
  case h_6 h => exact absurd (BitVec.eq_of_toNat_eq h) hget
  case h_10 h => exact absurd (BitVec.eq_of_toNat_eq h) hput
  all_goals rfl

/-- Settles O4: two words of R91 that differ in one field agree in the other two. -/
theorem unusedFieldsAreIgnored : Obligations.UnusedFieldsAreIgnored := by
  unfold Obligations.UnusedFieldsAreIgnored
  intro opc a8 a8' a16 a16'
  constructor
  · intro hinit hput
    exact decode_hcmd_arg8_unused (by simp) (by simp) (by simpa using hinit) (by simpa using hput)
  · intro hget hput
    exact decode_hcmd_arg16_unused (by simp) (by simp) (by simpa using hget) (by simpa using hput)

/-- The word of an instruction, written out, decodes to it. -/
theorem decode_of_encode_eq {i : Instr} {w : Word} (h : encode i = w) : decode i.format w = .ok i := by
  rw [← h, decode_encode]

/-- Settles O3: each word is that of its instruction, but for 0xABCD0011, GETBYTE with a value in the field
`ARG16` it does not use, and the unassigned opcode 0x05. -/
theorem specWordsDecode : Obligations.SpecWordsDecode := by
  unfold Obligations.SpecWordsDecode
  refine ⟨decode_of_encode_eq (i := .init 3) rfl, decode_of_encode_eq (i := .init 17) rfl,
    decode_of_encode_eq (i := .putbyte 0x41) rfl, decode_of_encode_eq (i := .getbuffer 6) rfl,
    decode_of_encode_eq (i := .putbuffer 300) rfl, ?unused, ?unassigned,
    decode_of_encode_eq (i := .uopPushTx) rfl, decode_of_encode_eq (i := .trxReady) rfl,
    decode_of_encode_eq (i := .seqLoadAndSend) rfl, decode_of_encode_eq (i := .evtFrameEnd) rfl⟩
  case unused =>
    have hfields : decode .hcmd 0xABCD0011 = decode .hcmd (encode .getbyte) :=
      decode_hcmd_arg16_unused rfl rfl (by decide) (by decide)
    rw [hfields]
    exact decode_encode .getbyte
  case unassigned => exact decode_hcmd_unassigned (by decide)

end Sys2Proof

/-! The arrival of a host command (30_encoding.md R92, R94, R95), the instruction a step runs, and a
subroutine's call (10_state.md R46). -/

namespace Sys2Proof.Machine

variable {s t : State}

/-! ## A write of `CMD` -/

/-- A command that arrives while idle starts its routine (R92). -/
theorem acceptCommand_of_idle (h : s.status.busy = false) (l : Label) (x : Locals) :
    acceptCommand l x s =
      { s with
        status.busy := true
        seq := .run { label := l, loc := { x with a32 := s.addr } } [] } :=
  if_neg (by simp [h])

/-- A command that arrives while `BUSY` is lost (R95). -/
theorem acceptCommand_of_busy (h : s.status.busy = true) (l : Label) (x : Locals) :
    acceptCommand l x s = { s with status.ovr := true } :=
  if_pos h

/-- A host command's meaning while `BUSY` (R95). -/
theorem exec_hcmd_of_busy {i : Instr} (hi : i.format = .hcmd) (h : s.status.busy = true) :
    exec i s = .next { s with status.ovr := true } := by
  obtain ⟨l, x, _, hexec⟩ := exec_hcmd hi s
  rw [hexec, acceptCommand_of_busy h]

/-- An aligned write at offset 0 is a write of `CMD` (10_state.md R34). -/
theorem hostStep_write_cmd (w : Word) (s : State) : hostStep (.write 4 0x00 w) s = hostWriteCmd w s := rfl

/-- A word that decodes is executed (R92). -/
theorem hostWriteCmd_of_ok {w : Word} {i : Instr} (h : decode .hcmd w = .ok i) (s : State) :
    hostWriteCmd w s = exec i s := by
  simp only [hostWriteCmd, h]

/-- An opcode not in R93 sets `OVR` while `BUSY`, else `ILL` (R94, R95). -/
theorem hostWriteCmd_of_error {w : Word} {e : DecodeError} (h : decode .hcmd w = .error e) (s : State) :
    hostWriteCmd w s =
      .next { s with status := s.status.raise (if s.status.busy then .ovr else .ill) } := by
  simp only [hostWriteCmd, h]

/-- Any write of `CMD` while `BUSY` is lost (R95). -/
theorem hostWriteCmd_of_busy (h : s.status.busy = true) (w : Word) :
    hostWriteCmd w s = .next { s with status.ovr := true } := by
  cases hw : decode .hcmd w with
  | ok i => rw [hostWriteCmd_of_ok hw, exec_hcmd_of_busy (format_of_decode_hcmd hw) h]
  | error e => rw [hostWriteCmd_of_error hw, if_pos h]; rfl

/-- Settles O13: every host command's meaning is an arrival, which starts the routine. -/
theorem acceptedCommandStartsItsRoutine : Obligations.AcceptedCommandStartsItsRoutine := by
  unfold Obligations.AcceptedCommandStartsItsRoutine
  intro s hidle
  have starts (l : Label) (x : Locals) :=
    congrArg (Host.Outcome.next : State → Answer) (acceptCommand_of_idle hidle l x)
  exact ⟨fun _ => starts _ _, starts _ _, starts _ _, starts _ _, starts _ _, fun _ => starts _ _,
    starts _ _, starts _ _, fun _ => starts _ _, fun _ => starts _ _, starts _ _, starts _ _⟩

/-! ## The instruction a step runs -/

/-- The first turn listed is taken, and leaves the agenda. -/
theorem step_of_agenda {a : Turn} {ts : List Turn} (hlegal : s.legal = true) (h : s.agenda = a :: ts) :
    step s = takeTurn a { s with agenda := ts } := by
  simp only [step, hlegal, if_true, nextTurn, h]

/-- With no turn listed the block steps. -/
theorem step_of_no_agenda (hlegal : s.legal = true) (h : s.agenda = []) : step s = blockStep s := by
  simp only [step, hlegal, if_true, nextTurn, h, takeTurn]

/-- A code that decodes is performed (log 2). -/
theorem issueCode_of_ok {f : Format} {w : Word} {i : Instr} (h : decode f w = .ok i) (s : State) :
    issueCode f w s = exec i s := by
  simp only [issueCode, h]

/-- The block takes the event of highest priority (60_exceptions.md R265, R267). -/
theorem blockStep_of_event {v : Word} {i : Instr} (hp : pendingVector s.pend = some v)
    (hv : decode .evt v = .ok i) : blockStep s = exec i s := by
  simp only [blockStep, hp, issueCode_of_ok hv]

/-- Settles O5: the turn is taken, and its word decodes. -/
theorem stepRunsDecodedInstruction : Obligations.StepRunsDecodedInstruction := by
  unfold Obligations.StepRunsDecodedInstruction
  intro s i hlegal
  refine ⟨?command, ?issued, ?event, ?eventNoAgenda⟩
  case command =>
    intro w ts hag hw
    rw [step_of_agenda hlegal hag, takeTurn, hostStep_write_cmd, hostWriteCmd_of_ok hw]
  case issued =>
    intro f w ts hag hw
    rw [step_of_agenda hlegal hag, takeTurn, issueCode_of_ok hw]
  case event =>
    intro v ts hag hp hv
    exact (step_of_agenda hlegal hag).trans (blockStep_of_event hp hv)
  case eventNoAgenda =>
    intro v hag hp hv
    exact (step_of_no_agenda hlegal hag).trans (blockStep_of_event hp hv)

/-! ## Calls -/

/-- A call over a running stack leaves the caller's frames under the new one (10_state.md R46). -/
theorem callSub_of_run {f : Frame} {fs : List Frame} (h : s.seq = .run f fs) (g : Frame) :
    callSub g s = { s with seq := .run g (f :: fs) } := by
  simp only [callSub, h]

/-- A call with no caller makes the sequencer busy (log 16). -/
theorem callSub_of_idle (h : s.seq = .idle) (g : Frame) :
    callSub g s = { s with status.busy := true, seq := .run g [] } := by
  simp only [callSub, h]

/-- Settles O31: each of the five codes is a call of its routine's first frame. -/
theorem subroutineCallsPushAFrame : Obligations.SubroutineCallsPushAFrame := by
  unfold Obligations.SubroutineCallsPushAFrame
  intro s
  cases hseq : s.seq with
  | idle =>
    have called (g : Frame) :=
      congrArg (Host.Outcome.next : State → Answer) (callSub_of_idle hseq g)
    exact ⟨called _, called _, called _, called _, called _⟩
  | run f fs =>
    have called (g : Frame) :=
      congrArg (Host.Outcome.next : State → Answer) (callSub_of_run hseq g)
    exact ⟨called _, called _, called _, called _, called _⟩

end Sys2Proof.Machine

/-! The fault bits of `STATUS` are sticky: no step clears one (60_exceptions.md R262; 30_encoding.md R94,
R95). -/

namespace Sys2Proof.Machine

variable {f : Frame} {rest : List Frame} {s t : State}

/-- Every fault bit set in the first status is set in the second. -/
def Status.FaultsKept (st st' : Status) : Prop := ∀ c, st.has c = true → st'.has c = true

/-- A status left as it was keeps its fault bits. -/
theorem Status.FaultsKept.of_eq {st st' : Status} (h : st' = st) : st.FaultsKept st' := by
  intro c hc
  rwa [h]

/-- Raising a fault clears none. -/
theorem faultsKept_raise (c : FaultCode) (st : Status) : st.FaultsKept (st.raise c) := by
  intro d hd
  rw [raise_has, hd, Bool.or_true]

/-- `BUSY` is no fault bit. -/
theorem Status.FaultsKept.withBusy {st st' : Status} (h : st.FaultsKept st') (b : Bool) :
    st.FaultsKept { st' with busy := b } := by
  intro c hc
  rw [show ({ st' with busy := b } : Status).has c = st'.has c by cases c <;> rfl]
  exact h c hc

/-- A command that arrives clears no fault bit. -/
theorem faultsKept_acceptCommand (l : Label) (x : Locals) (s : State) :
    s.status.FaultsKept (acceptCommand l x s).status := by
  rcases acceptCommand_cases l x s with ⟨_, e⟩ | ⟨_, e⟩ <;> rw [e]
  · exact faultsKept_raise .ovr s.status
  · exact .withBusy (.of_eq rfl) true

/-- A call clears no fault bit. -/
theorem faultsKept_callSub (g : Frame) (s : State) : s.status.FaultsKept (callSub g s).status := by
  rcases callSub_cases g s with ⟨_, _, _, e⟩ | ⟨_, e⟩ <;> rw [e]
  · exact .of_eq rfl
  · exact .withBusy (.of_eq rfl) true

/-- A subroutine's return clears no fault bit. -/
theorem faultsKept_returnSub (v : OpResult) (give : Locals → Locals) (rest : List Frame) (s : State) :
    s.status.FaultsKept (returnSub v give rest s).status := by
  rcases returnSub_cases v give rest s with ⟨_, _, _, e⟩ | ⟨_, e⟩ <;> rw [e]
  · exact .of_eq rfl
  · exact .withBusy (.of_eq rfl) false

/-- A step of the sequencer's top frame clears no fault bit. -/
theorem Stepped.faultsKept (st : Stepped f rest s t) : s.status.FaultsKept t.status := by
  cases st with
  | stay => exact .of_eq rfl
  | goto e _ =>
    obtain ⟨_, hstatus, _⟩ := e.control
    exact .of_eq (by simp [hstatus])
  | call _ _ _ => exact faultsKept_callSub _ (moveTo _ _ rest s)
  | ret e _ =>
    obtain ⟨_, hstatus, _⟩ := e.control
    rw [← hstatus]
    exact faultsKept_returnSub _ _ _ _
  | finish _ e =>
    obtain ⟨_, hstatus, _⟩ := e.control
    rw [← hstatus]
    exact .withBusy (.of_eq rfl) false
  | fault c => exact .withBusy (faultsKept_raise c s.status) false

/-- A handler clears no fault bit: onFrameEnd alone writes `STATUS`, and raises `RXLEN` (R182). -/
theorem Handled.faultsKept {v : Word} (h : Handled s v t) : s.status.FaultsKept t.status := by
  cases h with
  | frameStart => exact .of_eq (by simp [takeEvent, handlerReturn])
  | frameEnd =>
    simp only [takeEvent, handlerReturn, onFrameEnd]
    split
    · split
      · simpa using faultsKept_raise .rxlen s.status
      · exact .of_eq (by simp)
    · exact .of_eq rfl
  | txComplete => exact .of_eq rfl

/-- An instruction clears no fault bit. -/
theorem Executed.faultsKept (h : Executed s t) : s.status.FaultsKept t.status := by
  cases h with
  | command _ => exact faultsKept_acceptCommand _ _ s
  | ring op =>
    obtain ⟨_, _, _, _, _, _, _, _, _, _, _, hstatus, _⟩ := op.fields
    exact .of_eq (by simp [hstatus])
  | peek sel => exact .of_eq (by simp)
  | count n => exact .of_eq (by simp)
  | call _ => exact faultsKept_callSub _ s
  | chip v => exact .of_eq (by simp)
  | event h => exact h.faultsKept

/-- A step of the host clears no fault bit: it raises `OVR` or `ILL`, or leaves `STATUS`. -/
theorem HostResult.faultsKept {a : HostAccess} (h : HostResult s a t) : s.status.FaultsKept t.status := by
  cases h with
  | command _ => exact faultsKept_acceptCommand _ _ s
  | rejected c => exact faultsKept_raise c s.status
  | _ => exact .of_eq (by simp)

/-- No turn clears a fault bit. -/
theorem TurnTaken.faultsKept {a : Turn} (h : TurnTaken s a t) : s.status.FaultsKept t.status := by
  cases h with
  | sequencer _ h =>
    rcases seqStep_cases h with ⟨_, rfl⟩ | ⟨f, rest, _, st⟩
    · exact .of_eq rfl
    · exact st.faultsKept
  | handler _ h => exact h.faultsKept
  | host h => exact h.faultsKept
  | chip c => exact .of_eq (by simp)
  | air a => exact .of_eq (by simp)
  | issue h => exact h.faultsKept

/-- No step of any agent clears a fault bit (R262). -/
theorem step_faultsKept (h : step s = .next t) : s.status.FaultsKept t.status := by
  obtain ⟨ts, turn⟩ := step_cases h
  exact turn.faultsKept

/-- Settles O11: the opcode does not decode, and `ILL` is a fault bit, which no step clears. -/
theorem illegalOpcodeSetsIll : Obligations.IllegalOpcodeSetsIll := by
  unfold Obligations.IllegalOpcodeSetsIll
  constructor
  · intro s w hidle hopc
    rw [hostStep_write_cmd, hostWriteCmd_of_error (decode_hcmd_unassigned hopc), hidle]
    rfl
  · intro s t h hill
    exact step_faultsKept h .ill hill

/-- Settles O12: the write of any word is lost, and `OVR` is a fault bit, which no step clears. -/
theorem busyCommandWriteIsLost : Obligations.BusyCommandWriteIsLost := by
  unfold Obligations.BusyCommandWriteIsLost
  refine ⟨?write, ?command, ?sticky⟩
  case write =>
    intro s w hbusy
    rw [hostStep_write_cmd, hostWriteCmd_of_busy hbusy]
  case command =>
    intro s i hbusy hi
    exact exec_hcmd_of_busy hi hbusy
  case sticky =>
    intro s t h hovr
    exact step_faultsKept h .ovr hovr

end Sys2Proof.Machine

/-! The ring primitives one by one, on the contents of a ring, and over runs of pushes and pops
(40_ring_buffer.md R120 to R129). -/

namespace Sys2Proof.Machine

variable {s : State} {sel : RingSel} {r : Ring}

/-! ## The answers of the primitives -/

/-- The ring replaced, read by its selector. -/
@[simp] theorem ring_setRing (sel : RingSel) (r : Ring) (s : State) : (s.setRing sel r).ring sel = r := by
  cases sel <;> rfl

/-- An append leaves the capacity. -/
@[simp] theorem pushed_size (r : Ring) (b : Byte) : (r.pushed b).size = r.size := rfl

/-- PEEK of an empty ring (R121). -/
theorem ringPeek_of_empty (h : (s.ring sel).length = 0) : ringPeek sel s = (.empty, s) :=
  if_pos h

/-- PEEK of a ring that holds bytes reads the oldest (R121). -/
theorem ringPeek_of_nonempty (h : (s.ring sel).length ≠ 0) {c : Option Byte}
    (hc : Memory.read (s.ring sel).store (s.ring sel).current.toNat = c) :
    ringPeek sel s = (.ok (drawn c s).1, (drawn c s).2) := by
  rw [ringPeek, if_neg h, hc]

/-- POP of an empty ring (R122). -/
theorem ringPop_of_empty (h : (s.ring sel).length = 0) : ringPop sel s = (.empty, s) :=
  if_pos h

/-- POP of a ring that holds bytes reads the oldest and removes it (R122). -/
theorem ringPop_of_nonempty (h : (s.ring sel).length ≠ 0) {c : Option Byte}
    (hc : Memory.read (s.ring sel).store (s.ring sel).current.toNat = c) :
    ringPop sel s = (.ok (drawn c s).1, (drawn c s).2.setRing sel (s.ring sel).popped) := by
  rw [ringPop, if_neg h, hc]

/-- PUSH into a ring with room (R123). -/
theorem ringPush_of_room (h : (s.ring sel).length.toNat < (s.ring sel).size.toNat) (b : Byte) :
    ringPush sel b s = (.ok b, s.setRing sel ((s.ring sel).pushed b)) :=
  if_pos h

/-- PUSH into a full ring (R123). -/
theorem ringPush_of_full (h : (s.ring sel).size.toNat ≤ (s.ring sel).length.toNat) (b : Byte) :
    ringPush sel b s = (.full, s) :=
  if_neg (by omega)

/-- An append as the fields it writes, the length counted in the register. -/
theorem pushed_eq (r : Ring) (b : Byte) :
    r.pushed b =
      { r with
        length := r.length + 1
        store := Memory.write r.store ((r.current.toNat + r.length.toNat) % r.size.toNat) b } := by
  have hlen : BitVec.ofNat 16 (r.length.toNat + 1) = r.length + 1 := by
    apply BitVec.eq_of_toNat_eq
    simp
  rw [Ring.pushed, hlen, Ring.slot]

/-- A removal as the fields it writes, the length counted in the register. -/
theorem popped_eq (h : r.length ≠ 0) :
    r.popped =
      { r with
        length := r.length - 1
        current := BitVec.ofNat 16 ((r.current.toNat + 1) % r.size.toNat) } := by
  have hlen : BitVec.ofNat 16 (r.length.toNat - 1) = r.length - 1 := by bv_omega
  rw [Ring.popped, hlen]

/-- Equal results leave equal states in the latch of an issued code. -/
theorem next_latch {p q : OpResult × State} (h : p = q) :
    (.next (latch p) : Answer) = .next (latch q) := by
  rw [h]

/-- POP of a ring that holds bytes, as the fields of the ring it writes. -/
theorem ringPop_fields_of_nonempty (h : (s.ring sel).length ≠ 0) {c : Option Byte}
    (hc : Memory.read (s.ring sel).store (s.ring sel).current.toNat = c) :
    ringPop sel s = (.ok (drawn c s).1, (drawn c s).2.setRing sel { s.ring sel with
      length := (s.ring sel).length - 1
      current := BitVec.ofNat 16 (((s.ring sel).current.toNat + 1) % (s.ring sel).size.toNat) }) := by
  rw [ringPop_of_nonempty h hc, popped_eq h]

/-- PUSH into a ring with room, as the fields of the ring it writes. -/
theorem ringPush_fields_of_room (h : (s.ring sel).length.toNat < (s.ring sel).size.toNat) (b : Byte) :
    ringPush sel b s = (.ok b, s.setRing sel { s.ring sel with
      length := (s.ring sel).length + 1
      store := Memory.write (s.ring sel).store
        (((s.ring sel).current.toNat + (s.ring sel).length.toNat) % (s.ring sel).size.toNat) b }) := by
  rw [ringPush_of_room h, pushed_eq]

/-- Settles O35: each code latches no result beside the ring RESET or FLUSH writes. -/
theorem resetAndFlushPrimitives : Obligations.ResetAndFlushPrimitives := by
  unfold Obligations.ResetAndFlushPrimitives
  intro s
  exact ⟨rfl, rfl, rfl, rfl⟩

/-- Settles O36: PEEK by its three cases on each ring; CAPREM and ISEMPTY by their definitions. -/
theorem readingPrimitives : Obligations.ReadingPrimitives := by
  unfold Obligations.ReadingPrimitives
  intro s
  refine ⟨?emptyRx, ?writtenRx, ?drawnRx, ?emptyTx, ?writtenTx, ?drawnTx, rfl, rfl, rfl, rfl⟩
  case emptyRx => exact fun h => next_latch (ringPeek_of_empty (sel := .rx) h)
  case writtenRx => exact fun _ h hc => next_latch (ringPeek_of_nonempty (sel := .rx) h hc)
  case drawnRx => exact fun h hc => next_latch (ringPeek_of_nonempty (sel := .rx) h hc)
  case emptyTx => exact fun h => next_latch (ringPeek_of_empty (sel := .tx) h)
  case writtenTx => exact fun _ h hc => next_latch (ringPeek_of_nonempty (sel := .tx) h hc)
  case drawnTx => exact fun h hc => next_latch (ringPeek_of_nonempty (sel := .tx) h hc)

/-- Settles O37: POP by its three cases on each ring. -/
theorem popPrimitive : Obligations.PopPrimitive := by
  unfold Obligations.PopPrimitive
  intro s
  refine ⟨?emptyRx, ?writtenRx, ?drawnRx, ?emptyTx, ?writtenTx, ?drawnTx⟩
  case emptyRx => exact fun h => next_latch (ringPop_of_empty (sel := .rx) h)
  case writtenRx => exact fun _ h hc => next_latch (ringPop_fields_of_nonempty (sel := .rx) h hc)
  case drawnRx => exact fun h hc => next_latch (ringPop_fields_of_nonempty (sel := .rx) h hc)
  case emptyTx => exact fun h => next_latch (ringPop_of_empty (sel := .tx) h)
  case writtenTx => exact fun _ h hc => next_latch (ringPop_fields_of_nonempty (sel := .tx) h hc)
  case drawnTx => exact fun h hc => next_latch (ringPop_fields_of_nonempty (sel := .tx) h hc)

/-- Settles O38: PUSH with room and into a full ring, on each ring. -/
theorem pushPrimitive : Obligations.PushPrimitive := by
  unfold Obligations.PushPrimitive
  intro s
  refine ⟨?roomRx, ?fullRx, ?roomTx, ?fullTx⟩
  case roomRx => exact fun h => next_latch (ringPush_fields_of_room (sel := .rx) h s.opArg)
  case fullRx => exact fun h => next_latch (ringPush_of_full (sel := .rx) h s.opArg)
  case roomTx => exact fun h => next_latch (ringPush_fields_of_room (sel := .tx) h s.opArg)
  case fullTx => exact fun h => next_latch (ringPush_of_full (sel := .tx) h s.opArg)

/-! ## The contents -/

/-- A ring holds as many bytes as its length says (10_state.md R24). -/
@[simp] theorem contents_length (r : Ring) : r.contents.length = r.length.toNat := by
  simp [Ring.contents]

/-- A ring holds nothing where its length is 0. -/
theorem contents_eq_nil_iff (r : Ring) : r.contents = [] ↔ r.length = 0 := by
  rw [← List.length_eq_zero_iff, contents_length]
  bv_omega

/-- Distinct positions within the size are distinct slots: the storage wraps onto itself no earlier. -/
theorem slot_injOn {i j : Nat} (hi : i < r.size.toNat) (hj : j < r.size.toNat)
    (h : r.slot i = r.slot j) : i = j :=
  (Nat.ModEq.add_left_cancel' _ h).eq_of_lt_of_lt hi hj

/-- The oldest byte of a sound ring stands at `current`. -/
theorem slot_zero (h : r.wf = true) : r.slot 0 = r.current.toNat := by
  obtain ⟨_, hcur, _, _⟩ := (ring_wf_iff r).1 h
  exact Nat.mod_eq_of_lt hcur

/-- PUSH with room appends to the contents: the slot it writes is none of those in use (R129 (4)). -/
theorem contents_pushed (b : Byte) (hroom : r.length.toNat < r.size.toNat) :
    (r.pushed b).contents = r.contents ++ [some b] := by
  have hslot (i : Nat) : (r.pushed b).slot i = r.slot i := rfl
  have hstore : (r.pushed b).store = Memory.write r.store (r.slot r.length.toNat) b := rfl
  rw [Ring.contents, pushed_length b hroom, List.range_succ, List.map_append, Ring.contents]
  congr 1
  · refine List.map_congr_left fun i hi => ?_
    have hlt := List.mem_range.1 hi
    have hother : r.slot i ≠ r.slot r.length.toNat := fun e =>
      hlt.ne (slot_injOn (hlt.trans hroom) hroom e)
    rw [hslot, hstore, read_write_other _ hother]
  · rw [List.map_singleton, hslot, hstore, read_write_same]

/-- POP removes the head of the contents of a sound ring, the byte at `current` (R129 (4)). -/
theorem contents_eq_cons_popped (hwf : r.wf = true) (hne : r.length ≠ 0) :
    r.contents = Memory.read r.store r.current.toNat :: r.popped.contents := by
  obtain ⟨_, hcur, _, _⟩ := (ring_wf_iff r).1 hwf
  have hlen : r.length.toNat = r.popped.length.toNat + 1 := by
    rw [popped_length]
    bv_omega
  rw [Ring.contents, hlen, List.range_succ_eq_map, List.map_cons, List.map_map, slot_zero hwf, Ring.contents]
  congr 1
  refine List.map_congr_left fun i _ => ?_
  rw [popped_slot (by omega)]
  rfl

/-- Settles O39: PUSH and POP by what they do to the contents; FLUSH and RESET leave length 0. -/
theorem primitivesActOnTheContents : Obligations.PrimitivesActOnTheContents := by
  unfold Obligations.PrimitivesActOnTheContents
  intro r b hwf
  refine ⟨fun hroom => ⟨pushed_wf hwf b hroom, contents_pushed b hroom⟩,
    fun hne => ⟨popped_wf hwf, contents_eq_cons_popped hwf hne⟩, ?flushed, flush_wf hwf, ?reset, reset_wf hwf⟩
  case flushed | reset => exact (contents_eq_nil_iff _).2 rfl

/-! ## Runs of pushes and of pops -/

/-- The state after a PUSH of each byte in turn. -/
def pushAll (sel : RingSel) (bs : List Byte) (s : State) : State :=
  bs.foldl (fun u b => (ringPush sel b u).2) s

/-- One POP more: its answer after those before, and the state it leaves. -/
def popNext (sel : RingSel) (p : List OpResult × State) : List OpResult × State :=
  (p.1 ++ [(ringPop sel p.2).1], (ringPop sel p.2).2)

/-- Pushes for which a sound ring has room append their bytes to its contents. -/
theorem pushAll_ring (sel : RingSel) (bs : List Byte) (s : State) (hwf : (s.ring sel).wf = true)
    (hroom : (s.ring sel).length.toNat + bs.length ≤ (s.ring sel).size.toNat) :
    ((pushAll sel bs s).ring sel).wf = true ∧
    ((pushAll sel bs s).ring sel).size = (s.ring sel).size ∧
    ((pushAll sel bs s).ring sel).contents = (s.ring sel).contents ++ bs.map some := by
  induction bs generalizing s with
  | nil => exact ⟨hwf, rfl, (List.append_nil _).symm⟩
  | cons b bs ih =>
    rw [List.length_cons] at hroom
    have hfirst : (s.ring sel).length.toNat < (s.ring sel).size.toNat := by omega
    obtain ⟨hwf', hsize, hcontents⟩ := ih (s.setRing sel ((s.ring sel).pushed b))
      (by rw [ring_setRing]; exact pushed_wf hwf b hfirst)
      (by rw [ring_setRing, pushed_length b hfirst, pushed_size]; omega)
    rw [ring_setRing, pushed_size] at hsize
    rw [ring_setRing, contents_pushed b hfirst, List.append_assoc] at hcontents
    have hcons : pushAll sel (b :: bs) s = pushAll sel bs (s.setRing sel ((s.ring sel).pushed b)) := by
      rw [pushAll, List.foldl_cons, ringPush_of_room hfirst, pushAll]
    rw [hcons]
    exact ⟨hwf', hsize, hcontents⟩

/-- As many pops as a sound ring holds written bytes answer them, oldest first, and empty the ring. -/
theorem popNext_iterate (sel : RingSel) (bs : List Byte) (acc : List OpResult) (s : State)
    (hwf : (s.ring sel).wf = true) (hbs : (s.ring sel).contents = bs.map some) :
    ((popNext sel)^[bs.length] (acc, s)).1 = acc ++ bs.map .ok ∧
    (((popNext sel)^[bs.length] (acc, s)).2.ring sel).length = 0 := by
  induction bs generalizing acc s with
  | nil => exact ⟨(List.append_nil _).symm, (contents_eq_nil_iff _).1 hbs⟩
  | cons b bs ih =>
    have hne : (s.ring sel).length ≠ 0 := fun h0 => by
      rw [(contents_eq_nil_iff _).2 h0] at hbs
      exact List.cons_ne_nil _ _ hbs.symm
    rw [contents_eq_cons_popped hwf hne, List.map_cons, List.cons.injEq] at hbs
    obtain ⟨hread, htail⟩ := hbs
    have hpop : popNext sel (acc, s) = (acc ++ [.ok b], s.setRing sel (s.ring sel).popped) := by
      rw [popNext, ringPop_of_nonempty hne hread, drawn_some]
    obtain ⟨hanswers, hempty⟩ := ih (acc ++ [.ok b]) (s.setRing sel (s.ring sel).popped)
      (by rw [ring_setRing]; exact popped_wf hwf) (by rw [ring_setRing]; exact htail)
    rw [List.length_cons, Function.iterate_succ_apply, hpop]
    exact ⟨by rw [hanswers, List.append_assoc, List.map_cons, List.singleton_append], hempty⟩

/-- Settles O40: the pushes make the bytes the contents, which as many pops answer in order; as many
bytes as the size leave no room. -/
theorem ringIsFirstInFirstOut : Obligations.RingIsFirstInFirstOut := by
  unfold Obligations.RingIsFirstInFirstOut
  intro s sel bs hwf hempty hfits pushes pops
  have hzero : (s.ring sel).length.toNat = 0 := by rw [hempty]; rfl
  obtain ⟨hwf', hsize, hcontents⟩ : (pushes.ring sel).wf = true ∧
      (pushes.ring sel).size = (s.ring sel).size ∧
      (pushes.ring sel).contents = (s.ring sel).contents ++ bs.map some :=
    pushAll_ring sel bs s hwf (by omega)
  rw [(contents_eq_nil_iff _).2 hempty, List.nil_append] at hcontents
  have hpops : pops bs.length = (popNext sel)^[bs.length] ([], pushes) := by
    have h := List.foldl_const (popNext sel) ([], pushes) (List.range bs.length)
    rwa [List.length_range] at h
  obtain ⟨hanswers, hdrained⟩ := popNext_iterate sel bs [] pushes hwf' hcontents
  rw [hpops]
  refine ⟨hanswers, hdrained, fun hall b => ringPush_of_full ?_ b⟩
  have hlen := congrArg List.length hcontents
  rw [contents_length, List.length_map] at hlen
  rw [hsize, hlen, hall]

end Sys2Proof.Machine

/-! PUSH_BLOCKING (40_ring_buffer.md R124): an attempt on a full ring takes three steps and changes nothing
but the frame of the routine; the fiftieth returns `FULL`. -/

namespace Sys2Proof.Machine

variable {s : State} {sel : RingSel} {b : Byte} {rest : List Frame} {x : Locals}

/-! ## The steps of the routine -/

/-- Only the last move of the top frame is left to see. -/
@[simp] theorem moveTo_moveTo (l l' : Label) (x x' : Locals) (rest rest' : List Frame) (s : State) :
    moveTo l x rest (moveTo l' x' rest' s) = moveTo l x rest s := rfl

/-- A state is where its top frame was moved to. -/
theorem eq_moveTo {l : Label} (h : s.seq = .run { label := l, loc := x } rest) :
    s = moveTo l x rest s := by
  rw [moveTo, ← h]

/-- Moving the top frame disturbs nobody. -/
theorem undisturbed_moveTo (h : s.undisturbed = true) (l : Label) (x : Locals) (rest : List Frame) :
    (moveTo l x rest s).undisturbed = true := h

/-- Moving the top frame leaves the rings. -/
@[simp] theorem ring_moveTo (sel : RingSel) (l : Label) (x : Locals) (rest : List Frame) (s : State) :
    (moveTo l x rest s).ring sel = s.ring sel := by
  cases sel <;> rfl

/-- Replacing a ring leaves the top frame where it was moved to. -/
theorem setRing_moveTo (sel : RingSel) (r : Ring) (l : Label) (x : Locals) (rest : List Frame) (s : State) :
    (moveTo l x rest s).setRing sel r = moveTo l x rest (s.setRing sel r) := by
  cases sel <;> rfl

/-- An undisturbed step of PUSH_BLOCKING. -/
theorem step_pushBlocking (hquiet : s.undisturbed = true) (l : PushBlockingStep) (x : Locals)
    (rest : List Frame) :
    step (moveTo (.pushBlocking l) x rest s) =
      stepPushBlocking l x rest (moveTo (.pushBlocking l) x rest s) :=
  step_undisturbed_run (undisturbed_moveTo hquiet _ x rest) rfl

/-- The loop starts at its first attempt. -/
theorem step_pushBlocking_S1 (hquiet : s.undisturbed = true) (x : Locals) (rest : List Frame) :
    step (moveTo (.pushBlocking .S1) x rest s) =
      .next (moveTo (.pushBlocking .S2) { x with i := 0 } rest s) :=
  step_pushBlocking hquiet .S1 x rest

/-- An attempt on a ring with room returns the answer of PUSH. -/
theorem step_pushBlocking_S2_room (hquiet : s.undisturbed = true) (rest : List Frame)
    (hroom : (s.ring x.sel).length.toNat < (s.ring x.sel).size.toNat) :
    step (moveTo (.pushBlocking .S2) x rest s) =
      .next (returnRing (.ok x.b) rest
        (moveTo (.pushBlocking .S2) x rest (s.setRing x.sel ((s.ring x.sel).pushed x.b)))) := by
  have hpush := ringPush_of_room (s := moveTo (.pushBlocking .S2) x rest s) (sel := x.sel)
    (by rwa [ring_moveTo]) x.b
  rw [ring_moveTo, setRing_moveTo] at hpush
  rw [step_pushBlocking hquiet, stepPushBlocking, hpush]
  rfl

/-- An attempt on a full ring notes `FULL` and leaves the ring. -/
theorem step_pushBlocking_S2_full (hquiet : s.undisturbed = true) (rest : List Frame)
    (hfull : (s.ring x.sel).size.toNat ≤ (s.ring x.sel).length.toNat) :
    step (moveTo (.pushBlocking .S2) x rest s) =
      .next (moveTo (.pushBlocking .S3) { x with r := .full } rest s) := by
  have hpush := ringPush_of_full (s := moveTo (.pushBlocking .S2) x rest s) (sel := x.sel)
    (by rwa [ring_moveTo]) x.b
  rw [step_pushBlocking hquiet, stepPushBlocking, hpush]
  rfl

/-- The `Delay` between attempts only moves on (20_memory.md R68). -/
theorem step_pushBlocking_S3 (hquiet : s.undisturbed = true) (x : Locals) (rest : List Frame) :
    step (moveTo (.pushBlocking .S3) x rest s) = .next (moveTo (.pushBlocking .S4) x rest s) :=
  step_pushBlocking hquiet .S3 x rest

/-- While attempts are left the loop goes on to the next. -/
theorem step_pushBlocking_S4_again (hquiet : s.undisturbed = true) (rest : List Frame)
    (h : x.i + 1 < Config.pbAttempts) :
    step (moveTo (.pushBlocking .S4) x rest s) =
      .next (moveTo (.pushBlocking .S2) { x with i := x.i + 1 } rest s) := by
  rw [step_pushBlocking hquiet, stepPushBlocking, if_pos h, moveTo_moveTo]

/-- After the last attempt the routine returns `FULL`. -/
theorem step_pushBlocking_S4_last (hquiet : s.undisturbed = true) (rest : List Frame)
    (h : ¬ x.i + 1 < Config.pbAttempts) :
    step (moveTo (.pushBlocking .S4) x rest s) =
      .next (returnRing .full rest (moveTo (.pushBlocking .S4) x rest s)) := by
  rw [step_pushBlocking hquiet, stepPushBlocking, if_neg h]

/-! ## The attempts on a full ring -/

/-- The locals of PUSH_BLOCKING at its attempt `n`, counted from 0: the attempts before it were answered
`FULL`. -/
def attemptLocals (sel : RingSel) (b : Byte) (n : Nat) : Locals :=
  { b := b, sel := sel, i := n, r := if n = 0 then .none else .full }

/-- The first attempt begins after one step. -/
theorem steps_to_first_attempt (hquiet : s.undisturbed = true)
    (hseq : s.seq = .run (pushBlockingFrame sel b) rest) :
    steps 1 s = .next (moveTo (.pushBlocking .S2) (attemptLocals sel b 0) rest s) := by
  have hstart := step_pushBlocking_S1 hquiet { b := b, sel := sel } rest
  rw [← eq_moveTo hseq] at hstart
  rw [steps_succ, hstart]
  rfl

/-- The first step of an attempt on a full ring is its push. -/
theorem steps_attempt_push (hquiet : s.undisturbed = true)
    (hfull : (s.ring sel).size.toNat ≤ (s.ring sel).length.toNat) (rest : List Frame) (n k : Nat) :
    steps (k + 1) (moveTo (.pushBlocking .S2) (attemptLocals sel b n) rest s) =
      steps k (moveTo (.pushBlocking .S3) { attemptLocals sel b n with r := .full } rest s) := by
  rw [steps_succ, step_pushBlocking_S2_full (x := attemptLocals sel b n) hquiet rest hfull, andThen_next]

/-- The second step of an attempt on a full ring is its delay. -/
theorem steps_attempt_delay (hquiet : s.undisturbed = true)
    (hfull : (s.ring sel).size.toNat ≤ (s.ring sel).length.toNat) (rest : List Frame) (n k : Nat) :
    steps (k + 2) (moveTo (.pushBlocking .S2) (attemptLocals sel b n) rest s) =
      steps k (moveTo (.pushBlocking .S4) { attemptLocals sel b n with r := .full } rest s) := by
  rw [steps_attempt_push hquiet hfull, steps_succ, step_pushBlocking_S3 hquiet, andThen_next]

/-- On a full ring attempt `n` of the fifty begins after `1 + 3 * n` steps. -/
theorem steps_to_attempt (hquiet : s.undisturbed = true)
    (hfull : (s.ring sel).size.toNat ≤ (s.ring sel).length.toNat)
    (hseq : s.seq = .run (pushBlockingFrame sel b) rest) (n : Nat) (hn : n < Config.pbAttempts) :
    steps (1 + 3 * n) s = .next (moveTo (.pushBlocking .S2) (attemptLocals sel b n) rest s) := by
  induction n with
  | zero => exact steps_to_first_attempt hquiet hseq
  | succ n ih =>
    have hagain := step_pushBlocking_S4_again (x := { attemptLocals sel b n with r := .full }) hquiet rest hn
    rw [show 1 + 3 * (n + 1) = (1 + 3 * n) + 3 by omega, steps_add, ih (by omega), andThen_next,
      steps_attempt_delay hquiet hfull rest n 1, steps_succ, hagain]
    rfl

/-- On a full ring the routine is still at work after 150 steps, and nothing but its frame has changed. -/
theorem steps_of_full (hquiet : s.undisturbed = true)
    (hfull : (s.ring sel).size.toNat ≤ (s.ring sel).length.toNat)
    (hseq : s.seq = .run (pushBlockingFrame sel b) rest) {k : Nat} (hk : k ≤ 3 * Config.pbAttempts) :
    ∃ x l, steps k s = .next (moveTo (.pushBlocking l) x rest s) := by
  cases k with
  | zero => exact ⟨_, .S1, congrArg _ (eq_moveTo hseq)⟩
  | succ k =>
    have hattempt := steps_to_attempt hquiet hfull hseq (k / 3) (by omega)
    have hsplit : k + 1 = (1 + 3 * (k / 3)) + k % 3 := by omega
    rw [hsplit, steps_add, hattempt, andThen_next]
    have hlt : k % 3 < 3 := Nat.mod_lt k (by decide)
    match k % 3, hlt with
    | 0, _ => exact ⟨_, .S2, rfl⟩
    | 1, _ => exact ⟨_, .S3, steps_attempt_push hquiet hfull rest _ 0⟩
    | 2, _ => exact ⟨_, .S4, steps_attempt_delay hquiet hfull rest _ 0⟩

/-- On a full ring the fiftieth attempt, the last, returns `FULL`. -/
theorem steps_to_full (hquiet : s.undisturbed = true)
    (hfull : (s.ring sel).size.toNat ≤ (s.ring sel).length.toNat)
    (hseq : s.seq = .run (pushBlockingFrame sel b) rest) :
    ∃ x, steps 151 s = .next (returnRing .full rest (moveTo (.pushBlocking .S4) x rest s)) := by
  have hlast := step_pushBlocking_S4_last (x := { attemptLocals sel b 49 with r := .full }) hquiet rest
    (Nat.lt_irrefl Config.pbAttempts)
  refine ⟨{ attemptLocals sel b 49 with r := .full }, ?_⟩
  rw [show 151 = (1 + 3 * 49) + 3 from rfl, steps_add, steps_to_attempt hquiet hfull hseq 49 (by decide),
    andThen_next, steps_attempt_delay hquiet hfull rest 49 1, steps_succ, hlast]
  rfl

/-- Settles O33: on a full ring fifty attempts and then `FULL`; with room the first attempt appends. -/
theorem pushBlockingRetriesFiftyTimes : Obligations.PushBlockingRetriesFiftyTimes := by
  unfold Obligations.PushBlockingRetriesFiftyTimes
  intro s f fs sel b hquiet hseq
  constructor
  · intro hlen
    have hfull : (s.ring sel).size.toNat ≤ (s.ring sel).length.toNat := by rw [hlen]
    obtain ⟨_, hreturn⟩ := steps_to_full hquiet hfull hseq
    exact ⟨hreturn, fun k hk => steps_of_full hquiet hfull hseq hk⟩
  · intro hroom
    have happend := step_pushBlocking_S2_room (x := attemptLocals sel b 0) hquiet (f :: fs) hroom
    rw [steps_add 1 1, steps_to_first_attempt hquiet hseq, andThen_next, steps_succ, happend]
    rfl

end Sys2Proof.Machine

/-! The chip port (41_radio_fsm.md R161 to R173): the reactions of the reference chip, the emission record
(43_frame_assembler.md R206), and the steps the transceiver takes on its own (R163). -/

namespace Sys2Proof.Machine

variable {s t : State}

/-! ## Chip commands (R165 to R171) -/

/-- A chip that reacts in its own steps only takes `TX_START` as a write and a grant (R163 (c)). -/
theorem chipWrite_txStart_anyChip (h : s.chipModel = .anyChip) :
    chipWrite .trxCmd cmdTxStart s =
      { s with chip.trxCmd := 0x02, chip.grants := s.chip.grants + 1 } := by
  simp [chipWrite, reactCommand, h, grantEmission, cmdTxStart]

/-- The reference chip takes `TX_START` in the step of its write, the grant counted before (log 20). -/
theorem chipWrite_txStart_ref (h : s.chipModel = .ref) :
    chipWrite .trxCmd cmdTxStart s = refTransmit (grantEmission { s with chip.trxCmd := cmdTxStart }) := by
  simp only [chipWrite, if_true, reactCommand, grantEmission, h]
  rfl

/-- `IDLE` and `FORCE_IDLE` on the reference chip (R166, R168). -/
theorem refToIdle_eq (s : State) :
    refToIdle s = if chipState s ≠ 0x0F then setArmed false (setChipState stIdle s) else s :=
  (ite_not ..).symm

/-- Settles O41: each command is the plain write of its code, `TX_START` with its grant. -/
theorem chipCommandsOnAnyChip : Obligations.ChipCommandsOnAnyChip := by
  unfold Obligations.ChipCommandsOnAnyChip
  intro s hany
  have written (v : Byte) (hv : v.extractLsb' 0 5 ≠ 0x02) :
      (.next (chipWrite .trxCmd v s) : Answer) = .next { s with chip.trxCmd := v } :=
    congrArg _ (chipWrite_trxCmd_anyChip hany hv)
  exact ⟨congrArg _ (chipWrite_txStart_anyChip hany), written _ (by decide), written _ (by decide),
    written _ (by decide), written _ (by decide), written _ (by decide), written _ (by decide)⟩

/-- Settles O42: each command is its write and then the reaction of the reference chip to its code. -/
theorem chipCommandsOnTheReferenceChip : Obligations.ChipCommandsOnTheReferenceChip := by
  unfold Obligations.ChipCommandsOnTheReferenceChip
  intro s href lands ignored
  have reacts (v : Byte) (hv : v.extractLsb' 0 5 ≠ 0x02) :
      (.next (chipWrite .trxCmd v s) : Answer) = .next (refCommand v { s with chip.trxCmd := v }) :=
    congrArg _ (chipWrite_trxCmd_ref href hv)
  have toIdle (v : Byte) : (.next (refToIdle { s with chip.trxCmd := v }) : Answer) =
      if chipState s ≠ 0x0F then lands v 0x08 false else ignored v := by
    rw [refToIdle_eq, apply_ite Host.Outcome.next]
    rfl
  refine ⟨?forceIdle, ?listen, ?idle, ?ready, ?sleep, ?wake⟩
  case forceIdle => exact (reacts cmdForceIdle (by decide)).trans (toIdle cmdForceIdle)
  case idle => exact (reacts cmdIdle (by decide)).trans (toIdle cmdIdle)
  case listen => exact (reacts cmdListen (by decide)).trans (apply_ite Host.Outcome.next ..)
  case ready => exact (reacts cmdReady (by decide)).trans (apply_ite Host.Outcome.next ..)
  case sleep => exact (reacts cmdSleep (by decide)).trans (apply_ite Host.Outcome.next ..)
  case wake => exact (reacts cmdWake (by decide)).trans (apply_ite Host.Outcome.next ..)

/-! ## Emissions (43_frame_assembler.md R206) -/

/-- `FB` holds the length `len` and after it the bytes `bs`. -/
def State.FbHolds (s : State) (len : Byte) (bs : List Byte) : Prop :=
  Memory.read s.chip.fb 0 = some len ∧
    ∀ j, (h : j < bs.length) → Memory.read s.chip.fb (1 + j) = some bs[j]

/-- The first byte of `FB`, where it was written. -/
theorem readFb_zero {len : Byte} (h : Memory.read s.chip.fb 0 = some len) : readFb 0 s = (len, s) := by
  rw [readFb, h, drawn_some]

/-- The record of a frame whose length a receiver can report is its payload (R206). -/
theorem emissionRecord_payload {len : Byte} {bs : List Byte} (h : s.FbHolds len bs) (hlo : 2 ≤ len.toNat)
    (hhi : len.toNat ≤ 127) (hlen : bs.length = len.toNat - 2) :
    emissionRecord s = ({ len := len, payload := some bs }, s) := by
  obtain ⟨h0, hbs⟩ := h
  have hrange : readFbRange 1 (len.toNat - 2) s = (bs, s) := hlen ▸ readFbRange_written 1 bs s hbs
  simp only [emissionRecord, readFb_zero h0, hrange, Config.frameMax, hlo, hhi, and_self, if_true]

/-- The record of any other frame has no payload (R206). -/
theorem emissionRecord_bottom {len : Byte} (h : Memory.read s.chip.fb 0 = some len)
    (hout : len.toNat < 2 ∨ 127 < len.toNat) : emissionRecord s = ({ len := len, payload := none }, s) := by
  have hnot : ¬ (2 ≤ len.toNat ∧ len.toNat ≤ Config.frameMax) := by
    unfold Config.frameMax
    omega
  simp only [emissionRecord, readFb_zero h, hnot, if_false]

/-- Building the record takes no more than draws. -/
theorem emissionRecord_draws (s : State) : ∃ d, (emissionRecord s).2 = { s with draws := s.draws + d } := by
  obtain ⟨d, hd⟩ := drawn_draws (Memory.read s.chip.fb 0) s
  unfold emissionRecord readFb
  dsimp only
  split
  · obtain ⟨e, he⟩ := readFbRange_draws 1 ((drawn (Memory.read s.chip.fb 0) s).1.toNat - 2)
      (drawn (Memory.read s.chip.fb 0) s).2
    exact ⟨d + e, by rw [he, hd, Nat.add_assoc]⟩
  · exact ⟨d, hd⟩

/-- An emission whose record takes no draw appends it and spends a grant. -/
theorem emitFrame_of_record {r : TxRecord} (h : emissionRecord s = (r, s)) :
    emitFrame s = { s with txLog := s.txLog ++ [r], chip.grants := s.chip.grants - 1 } := by
  rw [emitFrame, h]

/-- `TX_COMPLETE` is latched where its enable is 1 (60_exceptions.md R264). -/
theorem fireEvent_txComplete (s : State) :
    fireEvent .txComplete s = { s with pend.txComplete := s.pend.txComplete || s.en.txComplete } := by
  rcases fireEvent_cases .txComplete s with ⟨hen, e⟩ | ⟨hen, e⟩
  · have hen : s.en.txComplete = true := hen
    rw [e, hen, Bool.or_true]
    rfl
  · have hen : s.en.txComplete = false := hen
    rw [e, hen, Bool.or_false]

/-- The reference chip, `READY_TO_SEND` and armed, spends a grant on the frame that stands in `FB` (R165). -/
theorem refTransmit_armed {r : TxRecord} (hrecord : emissionRecord s = (r, s)) (hready : chipState s = 0x09)
    (harmed : s.chip.armed = true) :
    refTransmit s =
      { s with
        txLog := s.txLog ++ [r], chip.grants := s.chip.grants - 1, chip.armed := false
        pend.txComplete := s.pend.txComplete || s.en.txComplete } := by
  rw [refTransmit, if_pos ⟨hready, harmed⟩, emitFrame_of_record hrecord, fireEvent_txComplete]
  rfl

/-- Settles O43: the reference chip spends the grant of `TX_START` on the frame in `FB`, or keeps it. -/
theorem txStartOnTheReferenceChip : Obligations.TxStartOnTheReferenceChip := by
  unfold Obligations.TxStartOnTheReferenceChip
  intro s href
  have reacts : exec .trxTxStart s =
      .next (refTransmit (grantEmission { s with chip.trxCmd := cmdTxStart })) :=
    congrArg _ (chipWrite_txStart_ref href)
  refine ⟨?payload, ?bottom, ?idle⟩
  case payload =>
    intro len bs hready harmed h0 hlo hhi hlen hbs
    have hrecord := emissionRecord_payload (s := grantEmission { s with chip.trxCmd := cmdTxStart })
      ⟨h0, hbs⟩ hlo hhi hlen
    rw [reacts, refTransmit_armed hrecord hready harmed]
    rfl
  case bottom =>
    intro len hready harmed h0 hout
    have hrecord := emissionRecord_bottom (s := grantEmission { s with chip.trxCmd := cmdTxStart })
      h0 hout
    rw [reacts, refTransmit_armed hrecord hready harmed]
    rfl
  case idle =>
    intro hnot
    have hskip : ¬ (chipState s = stReady ∧ s.chip.armed = true) := by
      rintro ⟨hready, harmed⟩
      rcases hnot with hstate | hunarmed
      · exact hstate hready
      · rw [harmed] at hunarmed
        cases hunarmed
    exact reacts.trans (congrArg _ (if_neg hskip))

/-! ## The steps of the transceiver (R163, R164) -/

/-- A chip that reacts in its own steps takes the step of its turn. -/
theorem chipStep_anyChip (h : s.chipModel = .anyChip) (c : ChipStep) : chipStep c s = chipAct c s := by
  rw [chipStep, h]

/-- A chip that holds a grant may emit (R163 (c)). -/
theorem chipStep_emit (h : s.chipModel = .anyChip) (hgrant : 0 < s.chip.grants) :
    chipStep .emit s = emitFrame s :=
  (chipStep_anyChip h .emit).trans (if_pos hgrant)

/-- Settles O44: each step by its clause of R163; an emission by the record it builds. -/
theorem chipStepsAsAdmitted : Obligations.ChipStepsAsAdmitted := by
  unfold Obligations.ChipStepsAsAdmitted
  intro s
  refine ⟨fun href c => by rw [chipStep, href], fun hany => ⟨fun v => chipStep_anyChip hany _,
    fun v => chipStep_anyChip hany _, (chipStep_anyChip hany _).trans (fireEvent_txComplete s), ?noGrant,
    fun hgrant => ⟨?emits, ?payload, ?bottom⟩⟩⟩
  case noGrant =>
    intro h0
    exact (chipStep_anyChip hany .emit).trans (if_neg (by omega))
  case emits =>
    obtain ⟨d, hd⟩ := emissionRecord_draws s
    exact ⟨_, d, by rw [chipStep_emit hany hgrant, emitFrame, hd]⟩
  case payload =>
    intro len bs h0 hlo hhi hlen hbs
    rw [chipStep_emit hany hgrant, emitFrame_of_record (emissionRecord_payload ⟨h0, hbs⟩ hlo hhi hlen)]
  case bottom =>
    intro len h0 hout
    rw [chipStep_emit hany hgrant, emitFrame_of_record (emissionRecord_bottom h0 hout)]

end Sys2Proof.Machine

/-! The writes of the chip port in whose step no chip emits: all but `TX_START` and the trigger
(41_radio_fsm.md R163 (c)). They reach the chip, and the event state where they write `EVT_EN`. -/

namespace Sys2Proof.Machine

variable {s t : State}

/-- The writes that grant an emission: `TX_START` and the trigger (R163 (c)). -/
def ChipReg.grants (r : ChipReg) (v : Byte) : Bool :=
  match r with
  | .trxCmd => v.extractLsb' 0 5 == 0x02
  | .pin => v == pinTrigger
  | _ => false

/-! ## Reactions of the chip alone -/

/-- A change of the chip, its grants and its frame buffer kept, that takes only the chip into account. -/
def IsReaction (f : State → State) : Prop :=
  ∀ (m : ChipModel) (c : Chip), ∃ c' : Chip, c'.grants = c.grants ∧ c'.fb = c.fb ∧
    ∀ s : State, s.chipModel = m → s.chip = c → f s = { s with chip := c' }

theorem isReaction_chip {h : Chip → Chip} (hgrants : ∀ c, (h c).grants = c.grants)
    (hfb : ∀ c, (h c).fb = c.fb) : IsReaction fun s => { s with chip := h s.chip } :=
  fun _ c => ⟨h c, hgrants c, hfb c, by rintro s _ rfl; rfl⟩

theorem isReaction_none : IsReaction fun s => s :=
  isReaction_chip (h := id) (fun _ => rfl) fun _ => rfl

theorem isReaction_setChipState (code : BitVec 5) : IsReaction (setChipState code) :=
  isReaction_chip (h := fun c => { c with trxStatus := c.trxStatus.extractLsb' 5 3 ++ code })
    (fun _ => rfl) fun _ => rfl

theorem isReaction_setArmed (a : Bool) : IsReaction (setArmed a) :=
  isReaction_chip (h := fun c => { c with armed := a }) (fun _ => rfl) fun _ => rfl

/-- One reaction after another. -/
theorem IsReaction.comp {f g : State → State} (hf : IsReaction f) (hg : IsReaction g) :
    IsReaction fun s => f (g s) := by
  intro m c
  obtain ⟨c₁, hgrants₁, hfb₁, h₁⟩ := hg m c
  obtain ⟨c₂, hgrants₂, hfb₂, h₂⟩ := hf m c₁
  exact ⟨c₂, hgrants₂.trans hgrants₁, hfb₂.trans hfb₁, fun s hm hc =>
    (congrArg f (h₁ s hm hc)).trans (h₂ { s with chip := c₁ } hm rfl)⟩

/-- A reaction may depend on what the chip reports. -/
theorem isReaction_ite {p : BitVec 5 → Prop} [DecidablePred p] {f g : State → State} (hf : IsReaction f)
    (hg : IsReaction g) : IsReaction fun s => if p (chipState s) then f s else g s := by
  intro m c
  by_cases hp : p (c.trxStatus.extractLsb' 0 5)
  · obtain ⟨c', hgrants, hfb, h⟩ := hf m c
    exact ⟨c', hgrants, hfb, by rintro s hm rfl; exact (if_pos hp).trans (h s hm rfl)⟩
  · obtain ⟨c', hgrants, hfb, h⟩ := hg m c
    exact ⟨c', hgrants, hfb, by rintro s hm rfl; exact (if_neg hp).trans (h s hm rfl)⟩

/-- Every command of the reference chip but `TX_START` is a reaction (R166 to R171). -/
theorem isReaction_refCommand {v : Byte} (hv : v.extractLsb' 0 5 ≠ 0x02) : IsReaction (refCommand v) := by
  have lands (a : Bool) (code : BitVec 5) := (isReaction_setArmed a).comp (isReaction_setChipState code)
  unfold refCommand
  split
  case h_1 h => exact absurd (BitVec.eq_of_toNat_eq h) hv
  case h_2 | h_4 => exact isReaction_ite (p := (· = stAsleep)) isReaction_none (lands _ _)
  case h_3 =>
    exact isReaction_ite (p := fun st => st = stIdle ∨ st = stReady ∨ st = stListening) (lands _ _)
      isReaction_none
  case h_5 =>
    exact isReaction_ite (p := fun st => st = stIdle ∨ st = stListening ∨ st = stReady) (lands _ _)
      isReaction_none
  case h_6 => exact isReaction_ite (p := (· = stIdle)) (isReaction_setChipState _) isReaction_none
  case h_7 => exact isReaction_ite (p := (· = stAsleep)) (isReaction_setChipState _) isReaction_none
  case h_8 => exact isReaction_none

/-- Every write of `PIN` on the reference chip but the trigger is a reaction (R172). -/
theorem isReaction_refPin {v : Byte} (hv : v ≠ pinTrigger) : IsReaction (refPin v) := by
  have reset := (isReaction_chip (h := fun c =>
    { c with evtEn := 0, ctrl := 0, txPwr := 0, channel := refResetChannel })
    (fun _ => rfl) fun _ => rfl).comp ((isReaction_setArmed false).comp (isReaction_setChipState stIdle))
  unfold refPin
  simp only [hv, if_false]
  split
  · exact reset
  · exact isReaction_none

/-- A chip that reacts in its own steps does not react in the step of the write (R163). -/
theorem isReaction_byModel {f g : State → State} (hf : IsReaction f)
    (hany : ∀ s, s.chipModel = .anyChip → g s = s) (href : ∀ s, s.chipModel = .ref → g s = f s) :
    IsReaction g := by
  intro m c
  cases m with
  | anyChip => exact ⟨c, rfl, rfl, by rintro s hm rfl; exact hany s hm⟩
  | ref =>
    obtain ⟨c', hgrants, hfb, h⟩ := hf .ref c
    exact ⟨c', hgrants, hfb, fun s hm hc => (href s hm).trans (h s hm hc)⟩

/-- A command other than `TX_START`, on either chip. -/
theorem isReaction_reactCommand {v : Byte} (hv : v.extractLsb' 0 5 ≠ 0x02) : IsReaction (reactCommand v) :=
  isReaction_byModel (isReaction_refCommand hv) (fun s h => by rw [reactCommand, h])
    fun s h => by rw [reactCommand, h]

/-- A write of `PIN` other than the trigger, on either chip. -/
theorem isReaction_reactPin {v : Byte} (hv : v ≠ pinTrigger) : IsReaction (reactPin v) :=
  isReaction_byModel (isReaction_refPin hv) (fun s h => by rw [reactPin, h])
    fun s h => by rw [reactPin, h]

/-- Every write but those that grant an emission, and that of `EVT_EN`, changes the chip alone. -/
theorem isReaction_chipWrite {r : ChipReg} {v : Byte} (hquiet : r.grants v = false) (hr : r ≠ .evtEn) :
    IsReaction (chipWrite r v) := by
  cases r with
  | trxCmd =>
    have hv : v.extractLsb' 0 5 ≠ 0x02 := by simpa [ChipReg.grants] using hquiet
    have written := isReaction_chip (h := fun c => { c with trxCmd := v }) (fun _ => rfl) fun _ => rfl
    have reacts := (isReaction_reactCommand hv).comp written
    unfold chipWrite
    simpa only [show ¬ v.extractLsb' 0 5 = cmdTxStart.extractLsb' 0 5 from hv, if_false] using reacts
  | pin =>
    have hv : v ≠ pinTrigger := by simpa [ChipReg.grants] using hquiet
    have written := isReaction_chip (h := fun c => { c with pin := v }) (fun _ => rfl) fun _ => rfl
    have reacts := (isReaction_reactPin hv).comp written
    unfold chipWrite
    simpa only [hv, if_false] using reacts
  | evtEn => exact absurd rfl hr
  | ctrl => exact isReaction_chip (h := fun c => { c with ctrl := v }) (fun _ => rfl) fun _ => rfl
  | channel => exact isReaction_chip (h := fun c => { c with channel := v }) (fun _ => rfl) fun _ => rfl
  | txPwr => exact isReaction_chip (h := fun c => { c with txPwr := v }) (fun _ => rfl) fun _ => rfl

end Sys2Proof.Machine

/-! The ledger of emissions (41_radio_fsm.md R163 (c), 10_state.md R49): what each step appends to `txLog`
and what it grants. -/

namespace Sys2Proof.Machine

variable {f : Frame} {rest : List Frame} {x : Locals} {s t u : State}

/-- From `s` to `t` at most one record was appended to `txLog`, and `g` emissions were granted, each record
the price of a grant. -/
structure Ledger (g : Nat) (s t : State) : Prop where
  log : t.txLog = s.txLog ∨ ∃ r, t.txLog = s.txLog ++ [r]
  balance : t.txLog.length + t.chip.grants = s.txLog.length + s.chip.grants + g

/-- Nothing was emitted and nothing granted. -/
theorem Ledger.unchanged (hlog : t.txLog = s.txLog) (hgrants : t.chip.grants = s.chip.grants) :
    Ledger 0 s t :=
  ⟨.inl hlog, by rw [hlog, hgrants, Nat.add_zero]⟩

/-- The ledger reads `txLog` and the grants alone. -/
theorem Ledger.then_unchanged {g : Nat} (h : Ledger g s u) (hlog : t.txLog = u.txLog)
    (hgrants : t.chip.grants = u.chip.grants) : Ledger g s t :=
  ⟨by rw [hlog]; exact h.log, by rw [hlog, hgrants]; exact h.balance⟩

/-! ## The chip -/

/-- An emission spends a grant that is there. -/
theorem ledger_emitFrame (h : 0 < s.chip.grants) : Ledger 0 s (emitFrame s) where
  log := .inr ⟨(emissionRecord s).1, by simp⟩
  balance := by simp; omega

/-- The reference chip emits, or does nothing, where it holds a grant (R165, R173). -/
theorem ledger_refTransmit (h : 0 < s.chip.grants) : Ledger 0 s (refTransmit s) := by
  rcases refTransmit_cases s with ⟨_, _, e⟩ | ⟨_, e⟩ <;> rw [e]
  · exact (ledger_emitFrame h).then_unchanged (by simp) (by simp)
  · exact .unchanged rfl rfl

/-- A reaction of the chip alone emits nothing. -/
theorem IsReaction.ledger {react : State → State} (h : IsReaction react) (s : State) :
    Ledger 0 s (react s) := by
  obtain ⟨c, hgrants, _, hc⟩ := h s.chipModel s.chip
  rw [hc s rfl rfl]
  exact .unchanged rfl hgrants

/-- A write that grants no emission emits nothing. -/
theorem ledger_chipWrite_quiet {r : ChipReg} {v : Byte} (hquiet : r.grants v = false) (s : State) :
    Ledger 0 s (chipWrite r v s) := by
  by_cases hr : r = .evtEn
  · subst hr
    exact .unchanged rfl rfl
  · exact (isReaction_chipWrite hquiet hr).ledger s

/-- What was granted is emitted at once or kept. -/
theorem ledger_granted (hlog : u.txLog = s.txLog) (hgrants : u.chip.grants = s.chip.grants)
    (h : Ledger 0 (grantEmission u) t) : Ledger 1 s t where
  log := by
    have := h.log
    rwa [show (grantEmission u).txLog = s.txLog by simpa using hlog] at this
  balance := by
    have := h.balance
    simp only [grantEmission_fields, hlog, hgrants] at this
    omega

/-- Whichever chip reacts, `TX_START` emits no more than was granted. -/
theorem ledger_reactCommand_txStart (h : 0 < s.chip.grants) : Ledger 0 s (reactCommand cmdTxStart s) := by
  unfold reactCommand
  split
  · exact .unchanged rfl rfl
  · exact ledger_refTransmit h

/-- Whichever chip reacts, the trigger emits no more than was granted. -/
theorem ledger_reactPin_trigger (h : 0 < s.chip.grants) : Ledger 0 s (reactPin pinTrigger s) := by
  unfold reactPin
  split
  · exact .unchanged rfl rfl
  · exact ledger_refTransmit h

/-- A write of `TX_START` grants one emission. -/
theorem ledger_chipWrite_txStart (s : State) : Ledger 1 s (chipWrite .trxCmd cmdTxStart s) :=
  ledger_granted (u := { s with chip.trxCmd := cmdTxStart }) rfl rfl
    (ledger_reactCommand_txStart (s := grantEmission _) (Nat.succ_pos _))

/-- A write of the trigger grants one emission. -/
theorem ledger_chipWrite_trigger (s : State) : Ledger 1 s (chipWrite .pin pinTrigger s) :=
  ledger_granted (u := { s with chip.pin := pinTrigger }) rfl rfl
    (ledger_reactPin_trigger (s := grantEmission _) (Nat.succ_pos _))

/-- A step of the chip emits only where it holds a grant (R163 (c)). -/
theorem ledger_chipStep (c : ChipStep) (s : State) : Ledger 0 s (chipStep c s) := by
  unfold chipStep
  split
  · cases c with
    | emit =>
      unfold chipAct
      dsimp only
      split
      · exact ledger_emitFrame ‹_›
      · exact .unchanged rfl rfl
    | setCopy r v => exact .unchanged rfl (by cases r <;> rfl)
    | writeFb i v => unfold chipAct; dsimp only; split <;> exact .unchanged rfl rfl
    | fireTxComplete => exact .unchanged (by simp [chipAct]) (by simp [chipAct])
    | setStatus v => exact .unchanged rfl rfl
    | setQuality v => exact .unchanged rfl rfl
  · exact .unchanged rfl rfl

/-- The air writes the frame buffer, never the grants. -/
theorem putFbRange_grants (i : Nat) (bs : List Byte) (s : State) :
    (putFbRange i bs s).chip.grants = s.chip.grants := by
  induction bs generalizing i s with
  | nil => rfl
  | cons b bs ih => exact ih (i + 1) (putFb i b s)

/-- A step of the air emits nothing. -/
theorem airStep_grants (a : AirStep) (s : State) : (airStep a s).chip.grants = s.chip.grants := by
  have quality (q : Option Byte) : (setQuality q s).chip.grants = s.chip.grants := by cases q <;> rfl
  unfold airStep
  split
  · cases a with
    | frameStart q => simpa [airAct] using quality (some q)
    | frameEnd len bytes q => simpa [airAct, putFbRange_grants] using quality q
    | abandon => rfl
  · rfl

/-! ## The routines -/

/-- The ledger of what a step answers. -/
def AnswerLedger (g : Nat) (s : State) : Answer → Prop
  | .next t => Ledger g s t
  | _ => True

/-- A next state that keeps `txLog` and the grants. -/
theorem AnswerLedger.unchanged (hlog : t.txLog = s.txLog) (hgrants : t.chip.grants = s.chip.grants) :
    AnswerLedger 0 s (.next t) :=
  Ledger.unchanged hlog hgrants

/-- Where both branches have a ledger, the test has it. -/
theorem AnswerLedger.ite {g : Nat} {p : Prop} [Decidable p] {a b : Answer} (ha : AnswerLedger g s a)
    (hb : AnswerLedger g s b) : AnswerLedger g s (if p then a else b) := by
  split
  · exact ha
  · exact hb

/-- Where both next states have a ledger, the test has it. -/
theorem AnswerLedger.nextIte {g : Nat} {p : Prop} [Decidable p] (ht : AnswerLedger g s (.next t))
    (hu : AnswerLedger g s (.next u)) : AnswerLedger g s (.next (if p then t else u)) := by
  split
  · exact ht
  · exact hu

/-- What goes on after a POP, whatever was popped. -/
theorem AnswerLedger.afterPop {sel : RingSel} {r : OpResult} (h : ringPop sel s = (r, u))
    (hlog : t.txLog = u.txLog) (hgrants : t.chip.grants = u.chip.grants) : AnswerLedger 0 s (.next t) := by
  obtain rfl : (ringPop sel s).2 = u := by rw [h]
  exact .unchanged (by simpa using hlog) (by simpa using hgrants)

/-- What goes on after a host-memory write. -/
theorem AnswerLedger.afterMemWrite {a : Nat} {v : Byte} {l : Label} :
    AnswerLedger 0 s (andThen (memWrite a v s) fun u => .next (moveTo l x rest u)) := by
  unfold memWrite
  split
  · exact .unchanged rfl rfl
  · trivial

/-- What goes on after a frame-buffer write. -/
theorem AnswerLedger.afterWriteFb {i : Nat} {v : Byte} {l : Label} :
    AnswerLedger 0 s (andThen (writeFb i v s) fun u => .next (moveTo l x rest u)) := by
  unfold writeFb
  split
  · exact .unchanged rfl rfl
  · trivial

/-- What goes on after a host-memory read, whatever was read. -/
theorem AnswerLedger.afterMemRead {a : Nat} {k : Byte → Answer} (h : ∀ c, AnswerLedger 0 s (k c)) :
    AnswerLedger 0 s (memRead a s k) := by
  unfold memRead
  split
  · exact h _
  · trivial

/-- What goes on after a chip write that grants nothing. -/
theorem AnswerLedger.afterWrite {r : ChipReg} {v : Byte} {l : Label} (hquiet : r.grants v = false) :
    AnswerLedger 0 s (.next (moveTo l x rest (chipWrite r v s))) :=
  (ledger_chipWrite_quiet hquiet s).then_unchanged rfl rfl

/-- FORCE_IDLE writes no `TX_START` (R160). -/
theorem stepForceIdle_ledger (l : ForceIdleStep) : AnswerLedger 0 s (stepForceIdle l x rest s) := by
  cases l
  case S1 | S4 | S7 => exact .afterWrite (by decide)
  case S2 | S5 | S8 => exact .unchanged rfl rfl
  case S3 | S6 | S9 => exact .nextIte (.unchanged (by simp) (by simp)) (.unchanged rfl rfl)
  case S10 => exact .unchanged (by simp) (by simp)

/-- INIT writes no `TX_START` and no trigger (R150). -/
theorem stepInit_ledger (l : InitStep) : AnswerLedger 0 s (stepInit l x rest s) := by
  cases l
  case S1 | S5 | S12 => exact .nextIte (.unchanged rfl rfl) (.unchanged rfl rfl)
  case S2 | S3 | S4 | S6 | S11 | S18 => exact .unchanged rfl rfl
  case S7 =>
    unfold stepInit
    dsimp only
    split
    · exact .afterWrite (by decide)
    · exact .unchanged rfl rfl
  case S15 => exact .afterWrite rfl
  case S8 | S9 | S10 | S13 | S14 | S16 | S17 => exact .afterWrite (by decide)

/-- TERMINATE writes no `TX_START` (R154). -/
theorem stepTerminate_ledger (l : TerminateStep) : AnswerLedger 0 s (stepTerminate l x rest s) := by
  cases l
  case S1 => exact .nextIte (.unchanged rfl rfl) (.unchanged rfl rfl)
  case S2 | S3 | S6 => exact .unchanged rfl rfl
  case S4 | S5 => exact .afterWrite (by decide)

/-- The emissions a step of the sequencer grants: LOAD_AND_SEND writes `TX_START` at S8 and the trigger at
S9 (43_frame_assembler.md R200). -/
def Label.granted : Label → Nat
  | .loadAndSend .S8 | .loadAndSend .S9 => 1
  | _ => 0

/-- LOAD_AND_SEND grants an emission where it writes `TX_START`, and one where it writes the trigger. -/
theorem stepLoadAndSend_ledger (l : LoadAndSendStep) :
    AnswerLedger (Label.loadAndSend l).granted s (stepLoadAndSend l x rest s) := by
  cases l
  case S1 | S10 => exact .afterWrite (by decide)
  case S2 => exact .nextIte (.unchanged rfl rfl) (.unchanged rfl rfl)
  case S3 | S11 => exact .unchanged rfl rfl
  case S4 =>
    refine .nextIte (.unchanged rfl rfl) ?_
    split
    · rename_i h; exact .afterPop h rfl rfl
    · rename_i h; exact .afterPop h rfl rfl
  case S5 | S6 => exact .afterWriteFb
  case S7 => exact AnswerLedger.afterWriteFb (i := 0)
  case S8 => exact (ledger_chipWrite_txStart s).then_unchanged rfl rfl
  case S9 => exact (ledger_chipWrite_trigger s).then_unchanged rfl rfl
  case S12 =>
    exact (ledger_chipWrite_quiet (r := .trxCmd) (v := cmdListen) (by decide) s).then_unchanged (by simp) (by simp)

theorem stepAvailable_ledger (l : AvailableStep) : AnswerLedger 0 s (stepAvailable l x rest s) := by
  cases l
  case S1 => exact .nextIte (.unchanged rfl rfl) (.unchanged rfl rfl)
  case S2 => exact .unchanged rfl rfl

theorem stepGetByte_ledger (l : GetByteStep) : AnswerLedger 0 s (stepGetByte l x rest s) := by
  cases l
  case S1 => exact .nextIte (.unchanged rfl rfl) (.unchanged rfl rfl)
  case S2 => exact .afterPop rfl rfl rfl

theorem stepGetBuffer_ledger (l : GetBufferStep) : AnswerLedger 0 s (stepGetBuffer l x rest s) := by
  cases l
  case S1 | S2 => exact .nextIte (.unchanged rfl rfl) (.unchanged rfl rfl)
  case S3 => exact .ite (.unchanged rfl rfl) .afterMemWrite
  case S4 => exact .unchanged rfl rfl
  case S5 =>
    refine .nextIte (.unchanged rfl rfl) ?_
    split
    · rename_i h; exact .afterPop h rfl rfl
    · rename_i h; exact .afterPop h rfl rfl
  case S6 => exact .afterMemWrite

theorem stepFlushRx_ledger (l : FlushRxStep) : AnswerLedger 0 s (stepFlushRx l x rest s) := by
  cases l
  case S1 => exact .nextIte (.unchanged rfl rfl) (.unchanged rfl rfl)
  case S2 | S3 => exact .unchanged rfl rfl

theorem stepPutByte_ledger (l : PutByteStep) : AnswerLedger 0 s (stepPutByte l x rest s) := by
  cases l
  case S1 => exact .nextIte (.unchanged rfl rfl) (.unchanged rfl rfl)
  case S2 | S3 => exact .unchanged rfl rfl

theorem stepPutBuffer_ledger (l : PutBufferStep) : AnswerLedger 0 s (stepPutBuffer l x rest s) := by
  cases l
  case S1 | S2 => exact .nextIte (.unchanged rfl rfl) (.unchanged rfl rfl)
  case S3 => exact .ite (.unchanged rfl rfl) (.afterMemRead fun _ => .unchanged rfl rfl)
  case S4 | S5 => exact .unchanged rfl rfl

theorem stepPutString_ledger (l : PutStringStep) : AnswerLedger 0 s (stepPutString l x rest s) := by
  cases l
  case S1 => exact .nextIte (.unchanged rfl rfl) (.unchanged rfl rfl)
  case S2 =>
    exact .ite (.unchanged rfl rfl)
      (.afterMemRead fun _ => .nextIte (.unchanged rfl rfl) (.nextIte (.unchanged rfl rfl) (.unchanged rfl rfl)))
  case S4 => exact .ite (.unchanged rfl rfl) (.afterMemRead fun _ => .unchanged rfl rfl)
  case S3 | S5 | S6 | S7 | S8 => exact .unchanged rfl rfl

theorem stepTransmitNow_ledger (l : TransmitNowStep) : AnswerLedger 0 s (stepTransmitNow l x rest s) := by
  cases l
  case S1 => exact .nextIte (.unchanged rfl rfl) (.unchanged rfl rfl)
  case S2 | S3 => exact .unchanged rfl rfl

theorem stepPutOne_ledger (l : PutOneStep) : AnswerLedger 0 s (stepPutOne l x rest s) := by
  cases l
  case S1 => exact .nextIte (.unchanged (by simp) (by simp)) (.unchanged (by simp) (by simp))
  case S2 => exact .unchanged rfl rfl
  case S3 => exact .unchanged (by simp) (by simp)

theorem stepPushBlocking_ledger (l : PushBlockingStep) : AnswerLedger 0 s (stepPushBlocking l x rest s) := by
  cases l
  case S1 | S3 => exact .unchanged rfl rfl
  case S2 => exact .nextIte (.unchanged (by simp) (by simp)) (.unchanged (by simp) (by simp))
  case S4 => exact .nextIte (.unchanged rfl rfl) (.unchanged (by simp) (by simp))

/-- The step of the top frame, routine by routine. -/
theorem stepFrame_ledger (f : Frame) (rest : List Frame) (s : State) :
    AnswerLedger f.label.granted s (stepFrame f rest s) := by
  obtain ⟨l, x⟩ := f
  cases l with
  | init l => exact stepInit_ledger l
  | terminate l => exact stepTerminate_ledger l
  | isActive l => cases l; exact .unchanged rfl rfl
  | available l => exact stepAvailable_ledger l
  | getByte l => exact stepGetByte_ledger l
  | getBuffer l => exact stepGetBuffer_ledger l
  | flushRx l => exact stepFlushRx_ledger l
  | ovfCount l => cases l; exact .unchanged rfl rfl
  | putByte l => exact stepPutByte_ledger l
  | putBuffer l => exact stepPutBuffer_ledger l
  | putString l => exact stepPutString_ledger l
  | transmitNow l => exact stepTransmitNow_ledger l
  | forceIdle l => exact stepForceIdle_ledger l
  | loadAndSend l => exact stepLoadAndSend_ledger l
  | putOne l => exact stepPutOne_ledger l
  | pushBlocking l => exact stepPushBlocking_ledger l

/-- The labels whose step grants an emission. -/
theorem granted_eq_one {l : Label} (h : l.granted = 1) : l = .loadAndSend .S8 ∨ l = .loadAndSend .S9 := by
  unfold Label.granted at h
  split at h
  · exact .inl rfl
  · exact .inr rfl
  · cases h

/-! ## The other agents -/

/-- A handler leaves `txLog` and the chip (60_exceptions.md R269). -/
theorem Handled.ledger {v : Word} (h : Handled s v t) : Ledger 0 s t := by
  cases h with
  | frameStart => exact .unchanged (by simp [takeEvent, handlerReturn]) (by simp [takeEvent, handlerReturn])
  | frameEnd => exact .unchanged (by simp [takeEvent, handlerReturn]) (by simp [takeEvent, handlerReturn])
  | txComplete => exact .unchanged rfl rfl

/-- A step of the host leaves `txLog` and the chip. -/
theorem HostResult.ledger {a : HostAccess} (h : HostResult s a t) : Ledger 0 s t := by
  cases h <;> exact .unchanged (by simp) (by simp)

/-- An instruction other than `TX_START` grants nothing. -/
theorem exec_ledger {i : Instr} (hi : i ≠ .trxTxStart) : AnswerLedger 0 s (exec i s) := by
  cases i
  case init | terminate | isactive | available | getbyte | getbuffer | flushrx | ovfcount | putbyte |
      putbuffer | putstring | transmitnow => exact .unchanged (by simp) (by simp)
  case uopResetRx | uopPeekRx | uopPopRx | uopPushRx | uopPushbRx | uopCapremRx | uopIsemptyRx | uopFlushRx =>
    exact .unchanged (by simp) (by simp)
  case uopResetTx | uopPeekTx | uopPopTx | uopPushTx | uopPushbTx | uopCapremTx | uopIsemptyTx | uopFlushTx =>
    exact .unchanged (by simp) (by simp)
  case trxTxStart => exact absurd rfl hi
  case trxForceIdle | trxListen | trxIdle | trxReady | trxSleep | trxWake =>
    exact ledger_chipWrite_quiet (r := .trxCmd) (by decide) s
  case seqForceIdle | seqLoadAndSend | seqPutOne => exact .unchanged (by simp) (by simp)
  case evtFrameStart => exact Handled.frameStart.ledger
  case evtFrameEnd => exact Handled.frameEnd.ledger
  case evtTxComplete => exact Handled.txComplete.ledger

/-- `TX_START` is issued as the code 0x02 of its format alone (30_encoding.md R97). -/
theorem txStart_of_decode {f : Format} {w : Word} (h : decode f w = .ok .trxTxStart) :
    f = .trxcmd ∧ w = 0x02 := by
  obtain rfl : f = .trxcmd := by
    by_cases hf : f = .hcmd
    · subst hf
      cases format_of_decode_hcmd h
    · exact (encode_of_decode_internal hf h).1.symm
  exact ⟨rfl, (BitVec.eq_of_toNat_eq (encode_of_decode_internal (by decide) h).2).symm⟩

/-- An issued code grants an emission where it is `TX_START`, else nothing (log 2). -/
theorem issueCode_ledger {f : Format} {w : Word} (h : issueCode f w s = .next t) :
    Ledger 0 s t ∨ (f = .trxcmd ∧ w = 0x02) ∧ Ledger 1 s t := by
  cases hw : decode f w with
  | error e =>
    simp only [issueCode, hw] at h
    cases h
  | ok i =>
    rw [issueCode_of_ok hw] at h
    by_cases hi : i = .trxTxStart
    · subst hi
      obtain rfl := Host.Outcome.next.inj h
      exact .inr ⟨txStart_of_decode hw, ledger_chipWrite_txStart s⟩
    · have hledger : AnswerLedger 0 s (exec i s) := exec_ledger hi
      rw [h] at hledger
      exact .inl hledger

/-! ## Every step -/

/-- A step of the sequencer has the ledger of its label. -/
theorem seqStep_ledger (h : seqStep s = .next t) :
    Ledger 0 s t ∨ ∃ f rest, s.seq = .run f rest ∧ f.label.granted = 1 ∧ Ledger 1 s t := by
  unfold seqStep at h
  split at h
  · obtain rfl := Host.Outcome.next.inj h
    exact .inl (.unchanged rfl rfl)
  · rename_i f rest hrun
    have hledger := stepFrame_ledger f rest s
    rw [h] at hledger
    have hgranted : f.label.granted = 0 ∨ f.label.granted = 1 := by
      unfold Label.granted
      split <;> simp
    rcases hgranted with h0 | h1
    · exact .inl (h0 ▸ hledger)
    · exact .inr ⟨f, rest, hrun, h1, h1 ▸ hledger⟩

/-- A step is the next turn, taken with the agenda left. -/
theorem takeTurn_of_step (h : step s = .next t) :
    ∃ ts, takeTurn (nextTurn s).1 { s with agenda := ts } = .next t := by
  unfold step at h
  split at h
  · unfold nextTurn at h ⊢
    split at h
    · exact ⟨s.agenda, h⟩
    · exact ⟨_, h⟩
  · cases h

/-- A step of any agent grants nothing, or writes `TX_START` or the trigger and grants one emission. -/
theorem step_ledger (h : step s = .next t) :
    Ledger 0 s t ∨ Ledger 1 s t ∧ (s.seqTurn = some (.loadAndSend .S8) ∨
      s.seqTurn = some (.loadAndSend .S9) ∨ (nextTurn s).1 = .issue .trxcmd 0x02) := by
  obtain ⟨ts, h⟩ := takeTurn_of_step h
  have whole {g : Nat} (hg : Ledger g { s with agenda := ts } t) : Ledger g s t := ⟨hg.log, hg.balance⟩
  generalize hturn : (nextTurn s).1 = a at h
  cases a with
  | block =>
    rcases blockStep_cases h with ⟨hp, hseq⟩ | ⟨v, _, hv⟩
    · rcases seqStep_ledger hseq with h0 | ⟨f, rest, hrun, hgranted, h1⟩
      · exact .inl (whole h0)
      · have hp : pendingVector s.pend = none := hp
        have hrun : s.seq = .run f rest := hrun
        have hlabel : s.seqTurn = some f.label := by simp [State.seqTurn, State.topLabel, hturn, hp, hrun]
        rw [hlabel]
        exact .inr ⟨whole h1, (granted_eq_one hgranted).imp (congrArg some) (.inl ∘ congrArg some)⟩
    · exact .inl (whole hv.ledger)
  | host a => exact .inl (whole (hostStep_cases h).ledger)
  | chip c =>
    obtain rfl := Host.Outcome.next.inj h
    exact .inl (whole (ledger_chipStep c _))
  | air a =>
    obtain rfl := Host.Outcome.next.inj h
    exact .inl (.unchanged (by simp) (airStep_grants a _))
  | issue f w =>
    rcases issueCode_ledger h with h0 | ⟨⟨rfl, rfl⟩, h1⟩
    · exact .inl (whole h0)
    · exact .inr ⟨whole h1, .inr (.inr rfl)⟩

/-- Settles O60: the ledger of the step that was taken. -/
theorem grantsBoundTheEmissions : Obligations.GrantsBoundTheEmissions := by
  unfold Obligations.GrantsBoundTheEmissions
  intro s t h
  rcases step_ledger h with ⟨hlog, hbalance⟩ | ⟨⟨hlog, hbalance⟩, hwriter⟩
  · exact ⟨hlog, 0, hbalance, Nat.zero_le 1, nofun⟩
  · exact ⟨hlog, 1, hbalance, Nat.le_refl 1, fun _ => hwriter⟩

end Sys2Proof.Machine

/-! Undisturbed runs of the sequencer (10_state.md R46): one step of the top frame, a command from its
arrival to its end, and the commands that end in one or two steps. -/

namespace Sys2Proof.Machine

variable {l : Label} {x : Locals} {rest : List Frame} {s t u : State}

/-! ## Steps of the top frame -/

/-- An undisturbed step is that of the frame on top. -/
theorem step_moveTo (hquiet : s.undisturbed = true) (l : Label) (x : Locals) (rest : List Frame) :
    step (moveTo l x rest s) = stepFrame { label := l, loc := x } rest (moveTo l x rest s) :=
  step_undisturbed_run (undisturbed_moveTo hquiet l x rest) rfl

/-- The step of the top frame first. -/
theorem steps_succ_moveTo (hquiet : s.undisturbed = true) (k : Nat)
    (h : stepFrame { label := l, loc := x } rest (moveTo l x rest s) = .next t) :
    steps (k + 1) (moveTo l x rest s) = steps k t := by
  rw [steps_succ, step_moveTo hquiet, h, andThen_next]

/-- Some number of steps leads from `s` to `t`. -/
def Reaches (s t : State) : Prop := ∃ k, steps k s = .next t

theorem Reaches.refl (s : State) : Reaches s s := ⟨0, rfl⟩

theorem Reaches.trans (h : Reaches s t) (h' : Reaches t u) : Reaches s u := by
  obtain ⟨j, hj⟩ := h
  obtain ⟨k, hk⟩ := h'
  exact ⟨j + k, by rw [steps_add, hj, andThen_next, hk]⟩

/-- The step of the top frame, and then a run. -/
theorem Reaches.step (hquiet : s.undisturbed = true)
    (h : stepFrame { label := l, loc := x } rest (moveTo l x rest s) = .next t) (ht : Reaches t u) :
    Reaches (moveTo l x rest s) u := by
  obtain ⟨k, hk⟩ := ht
  exact ⟨k + 1, (steps_succ_moveTo hquiet k h).trans hk⟩

/-- A write that grants no emission does not depend on where the sequencer stands. -/
theorem chipWrite_moveTo {r : ChipReg} {v : Byte} (hquiet : r.grants v = false) (l : Label) (x : Locals)
    (rest : List Frame) (s : State) :
    chipWrite r v (moveTo l x rest s) = moveTo l x rest (chipWrite r v s) := by
  by_cases hr : r = .evtEn
  · subst hr; rfl
  · obtain ⟨c, _, _, h⟩ := isReaction_chipWrite hquiet hr s.chipModel s.chip
    rw [h s rfl rfl, h (moveTo l x rest s) rfl rfl]
    rfl

/-- A write that grants no emission latches no event. -/
theorem undisturbed_chipWrite {r : ChipReg} {v : Byte} (hquiet : r.grants v = false)
    (h : s.undisturbed = true) : (chipWrite r v s).undisturbed = true := by
  by_cases hr : r = .evtEn
  · subst hr
    obtain ⟨_, _, hpend⟩ := (undisturbed_iff s).1 h
    refine undisturbed_congr h rfl rfl rfl rfl rfl ((pendingVector_none _).2 ?_)
    obtain ⟨hstart, hend, htxc⟩ := (pendingVector_none _).1 hpend
    exact ⟨by simp [chipWrite, EventBits.mask, hstart], by simp [chipWrite, EventBits.mask, hend],
      by simp [chipWrite, EventBits.mask, htxc]⟩
  · obtain ⟨c, _, _, hc⟩ := isReaction_chipWrite hquiet hr s.chipModel s.chip
    rw [hc s rfl rfl]
    exact h

/-- A step that writes the chip and goes on, and then a run. -/
theorem Reaches.write {r : ChipReg} {v : Byte} {l' : Label} (hquiet : s.undisturbed = true)
    (hr : r.grants v = false)
    (h : stepFrame { label := l, loc := x } rest (moveTo l x rest s) =
      .next (moveTo l' x rest (chipWrite r v (moveTo l x rest s))))
    (ht : Reaches (moveTo l' x rest (chipWrite r v s)) u) : Reaches (moveTo l x rest s) u := by
  rw [chipWrite_moveTo hr] at h
  exact .step hquiet h ht

/-! ## Commands (30_encoding.md R92; 10_state.md R46) -/

/-- `BUSY` is set, as when a command was accepted. -/
def State.accepted (s : State) : State := { s with status.busy := true }

/-- Accepting a command disturbs nobody. -/
theorem undisturbed_accepted (h : s.undisturbed = true) : s.accepted.undisturbed = true := h

/-- A command that arrives while idle stands at its first step. -/
theorem acceptCommand_eq_moveTo (hidle : s.status.busy = false) (l : Label) (x : Locals) :
    acceptCommand l x s = moveTo l { x with a32 := s.addr } [] s.accepted :=
  acceptCommand_of_idle hidle l x

/-- The steps after a command's arrival are those of its routine. -/
theorem steps_of_accepted (hidle : s.status.busy = false) (l : Label) (x : Locals) (k : Nat) :
    andThen (.next (acceptCommand l x s)) (steps k) =
      steps k (moveTo l { x with a32 := s.addr } [] s.accepted) :=
  congrArg (steps k) (acceptCommand_eq_moveTo hidle l x)

/-- A command that was accepted and ends leaves `STATUS` as it was. -/
theorem finish_accepted (hidle : s.status.busy = false) (v : Int) (hu : u.status = s.accepted.status) :
    finish v u = { u with result := encodeResult v, status := s.status, seq := .idle } := by
  have hstatus : { u.status with busy := false } = s.status := by
    rw [hu]
    exact status_busy_false hidle
  rw [← hstatus]
  rfl

/-- A command that was accepted and raises a fault leaves its bit alone set. -/
theorem raiseFault_accepted (hidle : s.status.busy = false) (c : FaultCode)
    (hu : u.status = s.accepted.status) :
    raiseFault c u = { u with status := s.status.raise c, seq := .idle } := by
  have hstatus : { u.status.raise c with busy := false } = s.status.raise c := by
    rw [hu, ← status_busy_false (st := s.status.raise c) (by rw [raise_busy, hidle])]
    cases c <;> rfl
  rw [← hstatus]
  rfl

/-- The last step of a command that has changed nothing yet: its answer is all that changes. -/
theorem steps_answer (hquiet : s.undisturbed = true) (hidle : s.status.busy = false) {v : Int}
    (h : stepFrame { label := l, loc := x } rest (moveTo l x rest s.accepted) =
      .next (finish v (moveTo l x rest s.accepted))) :
    steps 1 (moveTo l x rest s.accepted) = .next { s with result := encodeResult v, seq := .idle } :=
  (steps_succ_moveTo (undisturbed_accepted hquiet) 0 h).trans
    (congrArg Host.Outcome.next (finish_accepted hidle v rfl))

/-- The step in which a command that has changed nothing yet raises a fault: its bit is all that changes. -/
theorem steps_fault (hquiet : s.undisturbed = true) (hidle : s.status.busy = false) {c : FaultCode}
    (h : stepFrame { label := l, loc := x } rest (moveTo l x rest s.accepted) =
      .next (raiseFault c (moveTo l x rest s.accepted))) :
    steps 1 (moveTo l x rest s.accepted) = .next { s with status := s.status.raise c, seq := .idle } :=
  (steps_succ_moveTo (undisturbed_accepted hquiet) 0 h).trans
    (congrArg Host.Outcome.next (raiseFault_accepted hidle c rfl))

/-- A register returned by a command, as the word of `RESULT` (R96). -/
theorem encodeResult_toNat {w : Nat} (r : BitVec w) : encodeResult r.toNat = BitVec.zeroExtend 32 r :=
  (encodeResult_natCast _).trans (ofNat_toNat_eq_zeroExtend r)

/-- Settles O14: each command ends at its first step, or AVAILABLE, past its check, at its second. -/
theorem reportingCommandsReturnTheirRegister : Obligations.ReportingCommandsReturnTheirRegister := by
  unfold Obligations.ReportingCommandsReturnTheirRegister
  intro s hquiet hidle
  have starts := steps_of_accepted hidle
  refine ⟨?isactive, ?inactive, ?available, ?ovfcount⟩
  case isactive =>
    rw [← encodeResult_toNat]
    exact (starts (.isActive .S1) {} 1).trans (steps_answer hquiet hidle rfl)
  case inactive =>
    intro h0
    rw [← encodeResult_minus_one]
    exact (starts (.available .S1) {} 1).trans (steps_answer hquiet hidle (congrArg _ (if_pos h0)))
  case available =>
    intro h0
    rw [← encodeResult_toNat]
    exact (starts (.available .S1) {} 2).trans <|
      (steps_succ_moveTo (undisturbed_accepted hquiet) 1 (congrArg _ (if_neg h0))).trans <|
        steps_answer hquiet hidle rfl
  case ovfcount =>
    rw [← encodeResult_toNat]
    exact (starts (.ovfCount .S1) {} 1).trans (steps_answer hquiet hidle rfl)

/-- Settles O18: INIT fails its check at S1; the range check of the other two stands at S2. -/
theorem commandsRaiseTheirFaults : Obligations.CommandsRaiseTheirFaults := by
  unfold Obligations.CommandsRaiseTheirFaults
  intro s hquiet hidle hactive
  have starts := steps_of_accepted hidle
  have hquiet' := undisturbed_accepted hquiet
  constructor
  · intro a8
    exact (starts (.init .S1) _ 1).trans (steps_fault (c := .initact) hquiet hidle (congrArg _ (if_neg hactive)))
  · intro n hn hcross
    have hcrosses : rangeCrosses s.addr n.toNat = true :=
      Bool.and_eq_true_iff.2 ⟨decide_eq_true hn, decide_eq_true hcross⟩
    constructor
    · exact (starts (.getBuffer .S1) _ 2).trans <|
        (steps_succ_moveTo hquiet' 1 (congrArg _ (if_neg hactive))).trans <|
          steps_fault (c := .haddr) hquiet hidle (congrArg _ (if_pos hcrosses))
    · exact (starts (.putBuffer .S1) _ 2).trans <|
        (steps_succ_moveTo hquiet' 1 (congrArg _ (if_neg hactive))).trans <|
          steps_fault (c := .haddr) hquiet hidle (congrArg _ (if_pos hcrosses))

end Sys2Proof.Machine

/-! FORCE_IDLE (41_radio_fsm.md R160): three attempts, each a command, a delay and a verification. -/

namespace Sys2Proof.Machine

variable {x : Locals} {f : Frame} {rest fs : List Frame} {s : State} {v : Byte}

/-! ## Turns of the block -/

/-- The agenda whose first `n` turns are the block's: listed before the turns `ts`, or the block's because
none is listed at all. -/
def blockTurns (n : Nat) : Option (List Turn) → List Turn
  | none => []
  | some ts => List.replicate n .block ++ ts

/-- The state with `n` turns of the block to come. -/
def State.withTurns (s : State) (n : Nat) (ts : Option (List Turn)) : State :=
  { s with agenda := blockTurns n ts }

/-- A turn of the block is a step of the top frame while no latch is set. -/
theorem steps_withTurns (hlegal : s.legal = true) (hpend : pendingVector s.pend = none) (n k : Nat)
    (ts : Option (List Turn)) {l : Label} {t : State}
    (h : stepFrame { label := l, loc := x } rest (moveTo l x rest (s.withTurns n ts)) = .next t) :
    steps (k + 1) (moveTo l x rest (s.withTurns (n + 1) ts)) = steps k t := by
  have hturn : step (moveTo l x rest (s.withTurns (n + 1) ts)) =
      blockStep (moveTo l x rest (s.withTurns n ts)) := by
    cases ts with
    | none => exact step_of_no_agenda hlegal rfl
    | some ts => exact step_of_agenda (a := .block) (ts := blockTurns n (some ts)) hlegal rfl
  have hblock : blockStep (moveTo l x rest (s.withTurns n ts)) = .next t := by
    rw [blockStep, show pendingVector (moveTo l x rest (s.withTurns n ts)).pend = none from hpend]
    exact h
  rw [steps_succ, hturn, hblock, andThen_next]

/-- An undisturbed state is one whose turns are all the block's. -/
theorem withTurns_none (h : s.agenda = []) (n : Nat) : s.withTurns n none = s := by
  rw [State.withTurns, blockTurns, ← h]

/-! ## The attempts -/

/-- The three attempts, in their order. -/
inductive IdleAttempt where
  | idle
  | forceIdle
  | wake

/-- The command of an attempt. -/
def IdleAttempt.command : IdleAttempt → Byte
  | .idle => cmdIdle
  | .forceIdle => cmdForceIdle
  | .wake => cmdWake

/-- The step of an attempt that writes its command. -/
def IdleAttempt.write : IdleAttempt → ForceIdleStep
  | .idle => .S1
  | .forceIdle => .S4
  | .wake => .S7

/-- The delay of an attempt. -/
def IdleAttempt.delay : IdleAttempt → ForceIdleStep
  | .idle => .S2
  | .forceIdle => .S5
  | .wake => .S8

/-- The verification of an attempt. -/
def IdleAttempt.verify : IdleAttempt → ForceIdleStep
  | .idle => .S3
  | .forceIdle => .S6
  | .wake => .S9

/-- The step after an attempt that failed. -/
def IdleAttempt.next : IdleAttempt → ForceIdleStep
  | .idle => .S4
  | .forceIdle => .S7
  | .wake => .S10

/-- What follows the verification: the return of 1, or the next attempt. -/
def IdleAttempt.verdict (a : IdleAttempt) (x : Locals) (rest : List Frame) (s : State) : State :=
  if chipState s = stIdle then returnFlag true rest s else moveTo (.forceIdle a.next) x rest s

/-- The return of a subroutine does not depend on where its frame stood. -/
theorem returnFlag_moveTo (ok : Bool) (l : Label) (x : Locals) (rest rest' : List Frame) (s : State) :
    returnFlag ok rest (moveTo l x rest' s) = returnFlag ok rest s := by
  cases rest <;> rfl

/-- A command other than `TX_START` does not depend on the agenda. -/
theorem chipWrite_withTurns {r : ChipReg} (hquiet : r.grants v = false) (hr : r ≠ .evtEn) (n : Nat)
    (ts : Option (List Turn)) (s : State) :
    chipWrite r v (s.withTurns n ts) = (chipWrite r v s).withTurns n ts := by
  obtain ⟨c, _, _, h⟩ := isReaction_chipWrite hquiet hr s.chipModel s.chip
  rw [h s rfl rfl, h (s.withTurns n ts) rfl rfl]
  rfl

theorem IdleAttempt.command_quiet (a : IdleAttempt) : ChipReg.trxCmd.grants a.command = false := by
  cases a <;> decide

/-- The step that writes the command. -/
theorem stepFrame_write (a : IdleAttempt) (x : Locals) (rest : List Frame) (s : State) :
    stepFrame { label := .forceIdle a.write, loc := x } rest (moveTo (.forceIdle a.write) x rest s) =
      .next (moveTo (.forceIdle a.delay) x rest (chipWrite .trxCmd a.command s)) := by
  have hstep : stepFrame { label := .forceIdle a.write, loc := x } rest (moveTo (.forceIdle a.write) x rest s) =
      .next (moveTo (.forceIdle a.delay) x rest
        (chipWrite .trxCmd a.command (moveTo (.forceIdle a.write) x rest s))) := by
    cases a <;> rfl
  rw [hstep, chipWrite_moveTo a.command_quiet, moveTo_moveTo]

/-- The delay. -/
theorem stepFrame_delay (a : IdleAttempt) (x : Locals) (rest : List Frame) (s : State) :
    stepFrame { label := .forceIdle a.delay, loc := x } rest (moveTo (.forceIdle a.delay) x rest s) =
      .next (moveTo (.forceIdle a.verify) x rest s) := by
  cases a <;> rfl

/-- The verification. -/
theorem stepFrame_verify (a : IdleAttempt) (x : Locals) (rest : List Frame) (s : State) :
    stepFrame { label := .forceIdle a.verify, loc := x } rest (moveTo (.forceIdle a.verify) x rest s) =
      .next (a.verdict x rest s) := by
  have hverdict : stepFrame { label := .forceIdle a.verify, loc := x } rest (moveTo (.forceIdle a.verify) x rest s) =
      .next (a.verdict x rest (moveTo (.forceIdle a.verify) x rest s)) := by
    cases a <;> rfl
  rw [hverdict, IdleAttempt.verdict, returnFlag_moveTo]
  rfl

/-- The verification follows the delay: two turns of the block. -/
theorem steps_verify (hlegal : s.legal = true) (hpend : pendingVector s.pend = none) (a : IdleAttempt)
    (x : Locals) (rest : List Frame) (n k : Nat) (ts : Option (List Turn)) :
    steps (k + 2) (moveTo (.forceIdle a.delay) x rest (s.withTurns (n + 2) ts)) =
      steps k (a.verdict x rest (s.withTurns n ts)) := by
  rw [steps_withTurns hlegal hpend (n + 1) (k + 1) ts (stepFrame_delay a x rest _),
    steps_withTurns hlegal hpend n k ts (stepFrame_verify a x rest _)]

/-- The command of an attempt: one turn of the block. -/
theorem steps_command (hlegal : s.legal = true) (hpend : pendingVector s.pend = none) (a : IdleAttempt)
    (x : Locals) (rest : List Frame) (n k : Nat) (ts : Option (List Turn)) :
    steps (k + 1) (moveTo (.forceIdle a.write) x rest (s.withTurns (n + 1) ts)) =
      steps k (moveTo (.forceIdle a.delay) x rest ((chipWrite .trxCmd a.command s).withTurns n ts)) := by
  rw [steps_withTurns hlegal hpend n k ts (stepFrame_write a x rest _),
    chipWrite_withTurns a.command_quiet nofun]

/-- One attempt: three turns of the block. -/
theorem steps_attempt (hlegal : s.legal = true) (hpend : pendingVector s.pend = none) (a : IdleAttempt)
    (x : Locals) (rest : List Frame) (n k : Nat) (ts : Option (List Turn)) :
    steps (k + 3) (moveTo (.forceIdle a.write) x rest (s.withTurns (n + 3) ts)) =
      steps k (a.verdict x rest ((chipWrite .trxCmd a.command s).withTurns n ts)) := by
  obtain ⟨c, _, _, hc⟩ := isReaction_chipWrite a.command_quiet nofun s.chipModel s.chip
  rw [steps_command hlegal hpend a x rest (n + 2) (k + 2), hc s rfl rfl]
  exact steps_verify (s := { s with chip := c }) hlegal hpend a x rest n k ts

/-- One attempt of an undisturbed sequencer. -/
theorem steps_attempt_undisturbed (hquiet : s.undisturbed = true) (a : IdleAttempt) (x : Locals)
    (rest : List Frame) (k : Nat) :
    steps (k + 3) (moveTo (.forceIdle a.write) x rest s) =
      steps k (a.verdict x rest (chipWrite .trxCmd a.command s)) := by
  obtain ⟨hlegal, hagenda, hpend⟩ := (undisturbed_iff s).1 hquiet
  have hrun := steps_attempt hlegal hpend a x rest 0 k none
  rwa [withTurns_none hagenda, withTurns_none (by simpa using hagenda)] at hrun

/-- An attempt that finds the chip `IDLE` returns 1 to the caller. -/
theorem verdict_idle (a : IdleAttempt) (x : Locals) (f : Frame) (fs : List Frame) (h : chipState s = stIdle) :
    a.verdict x (f :: fs) s = { s with seq := .run { f with loc.ok := true } fs } :=
  if_pos h

/-- An attempt that does not goes on to the next. -/
theorem verdict_not_idle (a : IdleAttempt) (x : Locals) (rest : List Frame) (h : chipState s ≠ stIdle) :
    a.verdict x rest s = moveTo (.forceIdle a.next) x rest s :=
  if_neg h

/-! ## The reactions of the chip -/

/-- `TRX_CMD` was written, and the chip did not react. -/
def State.commanded (s : State) (v : Byte) : State := { s with chip.trxCmd := v }

/-- Only the last command written is left to see. -/
theorem commanded_commanded (s : State) (v w : Byte) : (s.commanded v).commanded w = s.commanded w := rfl

/-- A chip that takes the command of an attempt in its own steps (R163). -/
theorem chipWrite_command_anyChip (hany : s.chipModel = .anyChip) (a : IdleAttempt) :
    chipWrite .trxCmd a.command s = s.commanded a.command :=
  chipWrite_trxCmd_anyChip hany (by simpa [ChipReg.grants] using a.command_quiet)

/-- The reference chip, where it does not sleep, lands `IDLE` at `IDLE` (R168). -/
theorem chipWrite_idle_ref (href : s.chipModel = .ref) (hawake : chipState s ≠ stAsleep) :
    chipWrite .trxCmd cmdIdle s =
      { s with
        chip.trxCmd := cmdIdle, chip.armed := false
        chip.trxStatus := s.chip.trxStatus.extractLsb' 5 3 ++ stIdle } :=
  (chipWrite_trxCmd_ref href (by decide)).trans (if_neg hawake)

/-- The reference chip, where it sleeps, lands `IDLE` at `WAKE` (R171). -/
theorem chipWrite_wake_ref (href : s.chipModel = .ref) (hasleep : chipState s = stAsleep) :
    chipWrite .trxCmd cmdWake s =
      { s with chip.trxCmd := cmdWake, chip.trxStatus := s.chip.trxStatus.extractLsb' 5 3 ++ stIdle } :=
  (chipWrite_trxCmd_ref href (by decide)).trans (if_pos hasleep)

/-- A chip whose activity state was set reports it. -/
theorem chipState_of_trxStatus {code : BitVec 5} {u : State}
    (h : s.chip.trxStatus = u.chip.trxStatus.extractLsb' 5 3 ++ code) : chipState s = code := by
  rw [chipState, h]
  exact chipState_setChipState code u

/-- Neither `IDLE` nor `FORCE_IDLE` brings the chip to `IDLE` by itself: the chip reacts in its own steps, or
is the reference chip asleep (R163, R166, R168). -/
def State.IgnoresIdle (s : State) : Prop :=
  s.chipModel = .anyChip ∧ chipState s ≠ stIdle ∨ s.chipModel = .ref ∧ chipState s = stAsleep

theorem State.IgnoresIdle.ne_idle (h : s.IgnoresIdle) : chipState s ≠ stIdle := by
  rcases h with ⟨_, hne⟩ | ⟨_, hasleep⟩
  · exact hne
  · rw [hasleep]
    decide

theorem State.IgnoresIdle.chipWrite (h : s.IgnoresIdle) {a : IdleAttempt} (ha : a ≠ .wake) :
    chipWrite .trxCmd a.command s = s.commanded a.command := by
  rcases h with ⟨hany, _⟩ | ⟨href, hasleep⟩
  · exact chipWrite_command_anyChip hany a
  · cases a with
    | idle => exact (chipWrite_trxCmd_ref href (by decide)).trans (if_pos hasleep)
    | forceIdle => exact (chipWrite_trxCmd_ref href (by decide)).trans (if_pos hasleep)
    | wake => exact absurd rfl ha

/-- The first attempt fails. -/
theorem steps_first_attempt_fails (hlegal : s.legal = true) (hpend : pendingVector s.pend = none)
    (h : s.IgnoresIdle) (x : Locals) (rest : List Frame) (n k : Nat) (ts : Option (List Turn)) :
    steps (k + 3) (moveTo (.forceIdle .S1) x rest (s.withTurns (n + 3) ts)) =
      steps k (moveTo (.forceIdle .S4) x rest ((s.commanded cmdIdle).withTurns n ts)) := by
  have hrun := steps_attempt hlegal hpend .idle x rest n k ts
  rw [h.chipWrite (a := .idle) nofun] at hrun
  exact hrun.trans (congrArg (steps k) (verdict_not_idle .idle x rest h.ne_idle))

/-- The first two attempts fail. -/
theorem steps_two_attempts_fail (hlegal : s.legal = true) (hpend : pendingVector s.pend = none)
    (h : s.IgnoresIdle) (x : Locals) (rest : List Frame) (n k : Nat) (ts : Option (List Turn)) :
    steps (k + 6) (moveTo (.forceIdle .S1) x rest (s.withTurns (n + 6) ts)) =
      steps k (moveTo (.forceIdle .S7) x rest ((s.commanded cmdForceIdle).withTurns n ts)) := by
  have h' : (s.commanded cmdIdle).IgnoresIdle := h
  have hrun := steps_attempt (s := s.commanded cmdIdle) hlegal hpend .forceIdle x rest n k ts
  rw [h'.chipWrite (a := .forceIdle) nofun] at hrun
  exact (steps_first_attempt_fails hlegal hpend h x rest (n + 3) (k + 3) ts).trans
    (hrun.trans (congrArg (steps k) (verdict_not_idle .forceIdle x rest h.ne_idle)))

/-- The third attempt of an undisturbed sequencer, after two that failed. -/
theorem steps_third_attempt (hquiet : s.undisturbed = true) (h : s.IgnoresIdle) (x : Locals)
    (rest : List Frame) (k : Nat) :
    steps (k + 9) (moveTo (.forceIdle .S1) x rest s) =
      steps k (IdleAttempt.wake.verdict x rest (chipWrite .trxCmd cmdWake (s.commanded cmdForceIdle))) := by
  obtain ⟨hlegal, hagenda, hpend⟩ := (undisturbed_iff s).1 hquiet
  have htwo := steps_two_attempts_fail hlegal hpend h x rest 0 (k + 3) none
  rw [withTurns_none hagenda, withTurns_none (s := s.commanded cmdForceIdle) hagenda] at htwo
  exact htwo.trans (steps_attempt_undisturbed (s := s.commanded cmdForceIdle) hquiet .wake x rest k)

/-! ## The runs of an undisturbed sequencer -/

/-- The first verification finds the chip `IDLE`. -/
theorem forceIdle_at_first (hquiet : s.undisturbed = true) (h : chipState (chipWrite .trxCmd cmdIdle s) = stIdle)
    (x : Locals) (f : Frame) (fs : List Frame) :
    steps 3 (moveTo (.forceIdle .S1) x (f :: fs) s) =
      .next { chipWrite .trxCmd cmdIdle s with seq := .run { f with loc.ok := true } fs } :=
  (steps_attempt_undisturbed hquiet .idle x (f :: fs) 0).trans
    (congrArg (steps 0) (verdict_idle .idle x f fs h))

/-- A chip that takes no step and reports `IDLE`: the first verification returns 1. -/
theorem forceIdle_anyChip_idle (hquiet : s.undisturbed = true) (hany : s.chipModel = .anyChip)
    (hidle : chipState s = stIdle) (x : Locals) (f : Frame) (fs : List Frame) :
    steps 3 (moveTo (.forceIdle .S1) x (f :: fs) s) =
      .next { s with chip.trxCmd := 0x08, seq := .run { f with loc.ok := true } fs } := by
  have hwrite : chipWrite .trxCmd cmdIdle s = s.commanded cmdIdle := chipWrite_command_anyChip hany .idle
  have hrun := forceIdle_at_first hquiet (by rw [hwrite]; exact hidle) x f fs
  rw [hwrite] at hrun
  exact hrun

/-- A chip that takes no step and does not report `IDLE`: the three attempts fail, and 0 is returned. -/
theorem forceIdle_anyChip_not_idle (hquiet : s.undisturbed = true) (hany : s.chipModel = .anyChip)
    (hne : chipState s ≠ stIdle) (x : Locals) (f : Frame) (fs : List Frame) :
    steps 10 (moveTo (.forceIdle .S1) x (f :: fs) s) =
      .next { s with chip.trxCmd := 0x10, seq := .run { f with loc.ok := false } fs } := by
  have hthird := steps_third_attempt hquiet (.inl ⟨hany, hne⟩) x (f :: fs) 1
  rw [show chipWrite .trxCmd cmdWake (s.commanded cmdForceIdle) = s.commanded cmdWake from
      chipWrite_command_anyChip (s := s.commanded cmdForceIdle) hany .wake,
    verdict_not_idle .wake x (f :: fs) (s := s.commanded cmdWake) hne] at hthird
  exact hthird.trans (steps_succ_moveTo (s := s.commanded cmdWake) hquiet 0 rfl)

/-- The reference chip awake: the first verification returns 1. -/
theorem forceIdle_ref_awake (hquiet : s.undisturbed = true) (href : s.chipModel = .ref)
    (hawake : chipState s ≠ stAsleep) (x : Locals) (f : Frame) (fs : List Frame) :
    steps 3 (moveTo (.forceIdle .S1) x (f :: fs) s) =
      .next { s with
        chip.trxCmd := 0x08, chip.armed := false
        chip.trxStatus := s.chip.trxStatus.extractLsb' 5 3 ++ 0x08#5
        seq := .run { f with loc.ok := true } fs } := by
  have hwrite := chipWrite_idle_ref href hawake
  have hrun := forceIdle_at_first hquiet (by rw [hwrite]; exact chipState_of_trxStatus (u := s) rfl) x f fs
  rw [hwrite] at hrun
  exact hrun

/-- The reference chip asleep: the third verification returns 1. -/
theorem forceIdle_ref_asleep (hquiet : s.undisturbed = true) (href : s.chipModel = .ref)
    (hasleep : chipState s = stAsleep) (x : Locals) (f : Frame) (fs : List Frame) :
    steps 9 (moveTo (.forceIdle .S1) x (f :: fs) s) =
      .next { s with
        chip.trxCmd := 0x10
        chip.trxStatus := s.chip.trxStatus.extractLsb' 5 3 ++ 0x08#5
        seq := .run { f with loc.ok := true } fs } := by
  have hthird := steps_third_attempt hquiet (.inr ⟨href, hasleep⟩) x (f :: fs) 0
  rw [chipWrite_wake_ref (s := s.commanded cmdForceIdle) href hasleep,
    verdict_idle .wake x f fs (chipState_of_trxStatus (u := s) rfl)] at hthird
  exact hthird

/-! ## A chip that comes to report `IDLE` in a step of its own -/

/-- A turn of a chip that reacts in its own steps (R163). -/
theorem step_chipTurn (hlegal : s.legal = true) (hany : s.chipModel = .anyChip) (c : ChipStep) (ts : List Turn)
    (hagenda : s.agenda = .chip c :: ts) : step s = .next (chipAct c { s with agenda := ts }) :=
  (step_of_agenda hlegal hagenda).trans
    (congrArg Host.Outcome.next (chipStep_anyChip (s := { s with agenda := ts }) hany c))

/-- The attempt after whose command the chip comes to report `IDLE` returns 1, whatever was commanded
before. -/
theorem steps_attempt_answered (hquiet : s.undisturbed = true) (hany : s.chipModel = .anyChip)
    (hv : v.extractLsb' 0 5 = stIdle) (a : IdleAttempt) (before : Byte) (x : Locals) (f : Frame)
    (fs : List Frame) :
    steps 4 (moveTo (.forceIdle a.write) x (f :: fs)
        ((s.commanded before).withTurns 1 (some [.chip (.setStatus v)]))) =
      .next { s with
        chip.trxCmd := a.command, chip.trxStatus := v, seq := .run { f with loc.ok := true } fs } := by
  obtain ⟨hlegal, hagenda, hpend⟩ := (undisturbed_iff s).1 hquiet
  have hcommand := steps_command (s := s.commanded before) hlegal hpend a x (f :: fs) 0 3
    (some [.chip (.setStatus v)])
  rw [chipWrite_command_anyChip (s := s.commanded before) hany, commanded_commanded] at hcommand
  have hchip := step_chipTurn (s := moveTo (.forceIdle a.delay) x (f :: fs)
    ((s.commanded a.command).withTurns 0 (some [.chip (.setStatus v)]))) hlegal hany (.setStatus v) [] rfl
  have hverify := steps_verify (s := chipAct (.setStatus v) (s.commanded a.command)) hlegal hpend a x (f :: fs) 0 0
    none
  rw [withTurns_none (s := chipAct (.setStatus v) (s.commanded a.command)) hagenda 0,
    verdict_idle a x f fs (s := chipAct (.setStatus v) (s.commanded a.command)) hv] at hverify
  rw [hcommand, steps_succ, hchip, andThen_next]
  exact hverify

/-- Settles O32: the runs by the chip and by what it reports. -/
theorem forceIdleEscalates : Obligations.ForceIdleEscalates := by
  unfold Obligations.ForceIdleEscalates
  intro s f fs hquiet hseq
  obtain ⟨hlegal, hagenda, hpend⟩ := (undisturbed_iff s).1 hquiet
  have start (n : Nat) (ts : Option (List Turn)) :
      s.withTurns n ts = moveTo (.forceIdle .S1) {} (f :: fs) (s.withTurns n ts) := eq_moveTo hseq
  have start0 : s = moveTo (.forceIdle .S1) {} (f :: fs) s := eq_moveTo hseq
  refine ⟨fun hany => ⟨fun hidle => ?idle, fun hne => ?never, fun v hne hv => ?late⟩,
    fun href => ⟨fun hawake => ?awake, fun hasleep => ?asleep⟩⟩
  case idle => exact (congrArg (steps 3) start0).trans (forceIdle_anyChip_idle hquiet hany hidle {} f fs)
  case never => exact (congrArg (steps 10) start0).trans (forceIdle_anyChip_not_idle hquiet hany hne {} f fs)
  case awake => exact (congrArg (steps 3) start0).trans (forceIdle_ref_awake hquiet href hawake {} f fs)
  case asleep => exact (congrArg (steps 9) start0).trans (forceIdle_ref_asleep hquiet href hasleep {} f fs)
  case late =>
    have hignores : s.IgnoresIdle := .inl ⟨hany, hne⟩
    intro verified after
    have answered := steps_attempt_answered hquiet hany hv
    refine ⟨?first, ?second, ?third⟩
    case first => exact (congrArg (steps 4) (start 1 _)).trans (answered .idle s.chip.trxCmd {} f fs)
    case second =>
      exact (congrArg (steps 7) (start 4 _)).trans <|
        (steps_first_attempt_fails hlegal hpend hignores {} (f :: fs) 1 4 _).trans
          (answered .forceIdle cmdIdle {} f fs)
    case third =>
      exact (congrArg (steps 10) (start 7 _)).trans <|
        (steps_two_attempts_fail hlegal hpend hignores {} (f :: fs) 1 4 _).trans
          (answered .wake cmdForceIdle {} f fs)

end Sys2Proof.Machine

/-! The lifecycle commands run to their end (41_radio_fsm.md R150 to R154). -/

namespace Sys2Proof.Machine

variable {x : Locals} {s : State}

/-! ## The states of a run -/

/-- Another chip behind the port. -/
def State.withChip (s : State) (c : Chip) : State := { s with chip := c }

/-- No event latched or enabled. -/
def noEvents : EventBits := { frameStart := false, frameEnd := false, txComplete := false }

/-- Another chip behind the port, and the events disabled (R266). -/
def State.eventless (s : State) (c : Chip) : State := { s with chip := c, en := noEvents, pend := noEvents }

/-- The block inactive (10_state.md R27 to R29). -/
def State.deactivated (s : State) : State := { s with initialized := 0, rxOverflow := 0, txIdle := false }

/-- Both rings reset (40_ring_buffer.md R120). -/
def State.ringsReset (s : State) : State :=
  { s with rx := { s.rx with length := 0, current := 0 }, tx := { s.tx with length := 0, current := 0 } }

/-- Whatever chip stands behind the port, with no event latched nobody disturbs the sequencer. -/
theorem undisturbed_eventless (h : s.undisturbed = true) (c : Chip) : (s.eventless c).undisturbed = true :=
  undisturbed_congr h rfl rfl rfl rfl rfl rfl

/-! ## Chip writes of the lifecycle commands -/

/-- The write that disables the events drops those that were latched (60_exceptions.md R266). -/
theorem chipWrite_evtEnNone (s : State) :
    chipWrite .evtEn evtEnNone s = s.eventless { s.chip with evtEn := 0 } := by
  have hen : eventEnables evtEnNone = noEvents := by decide
  have hmask : s.pend.mask noEvents = noEvents := by simp [EventBits.mask, noEvents]
  rw [chipWrite, hen, hmask]
  rfl

/-- `SLEEP` (R170), on either chip. -/
theorem chipWrite_sleep (s : State) :
    ∃ c, chipWrite .trxCmd cmdSleep s = s.withChip c ∧ c.trxCmd = 0x0F ∧
      (s.chipModel = .ref → chipState s = stIdle → c.trxStatus.extractLsb' 0 5 = stAsleep) := by
  cases hm : s.chipModel with
  | anyChip => exact ⟨_, chipWrite_trxCmd_anyChip hm (by decide), rfl, nofun⟩
  | ref =>
    by_cases hidle : chipState s = stIdle
    · exact ⟨_, (chipWrite_trxCmd_ref hm (by decide)).trans (if_pos hidle), rfl,
        fun _ _ => chipState_setChipState stAsleep s⟩
    · exact ⟨_, (chipWrite_trxCmd_ref hm (by decide)).trans (if_neg hidle), rfl, fun _ h => absurd h hidle⟩

/-- `WAKE` keeps the frame buffer, and on a chip that reacts in its own steps is the write alone. -/
theorem chipWrite_wake (s : State) :
    ∃ c, chipWrite .trxCmd cmdWake s = s.withChip c ∧ c.fb = s.chip.fb ∧
      (s.chipModel = .anyChip → ∃ v, c = { s.chip with trxCmd := v }) := by
  cases hm : s.chipModel with
  | anyChip => exact ⟨_, chipWrite_trxCmd_anyChip hm (by decide), rfl, fun _ => ⟨_, rfl⟩⟩
  | ref =>
    obtain ⟨c, _, hfb, hc⟩ := isReaction_chipWrite (r := .trxCmd) (v := cmdWake) (by decide) nofun
      s.chipModel s.chip
    exact ⟨c, hc s rfl rfl, hfb, nofun⟩

/-- A chip that reacts in its own steps takes the write of `PIN` alone. -/
theorem chipWrite_pin_anyChip {v : Byte} (hany : s.chipModel = .anyChip) (hv : v ≠ pinTrigger) :
    chipWrite .pin v s = s.withChip { s.chip with pin := v } := by
  simp only [chipWrite, if_neg hv, reactPin, hany]
  rw [State.withChip, hany]

/-- The reference chip reacts in the step of a write of `PIN`. -/
theorem chipWrite_pin_ref {v : Byte} (href : s.chipModel = .ref) (hv : v ≠ pinTrigger) :
    chipWrite .pin v s = refPin v (s.withChip { s.chip with pin := v }) := by
  have reacts (u : State) (hu : u.chipModel = .ref) : reactPin v u = refPin v u := by rw [reactPin, hu]
  simp only [chipWrite, if_neg hv]
  exact reacts (s.withChip { s.chip with pin := v }) href

/-- The end of the pulse: no chip reacts. -/
theorem chipWrite_pinLow (s : State) : chipWrite .pin pinLow s = s.withChip { s.chip with pin := pinLow } := by
  cases hm : s.chipModel with
  | anyChip => exact chipWrite_pin_anyChip hm (by decide)
  | ref => exact (chipWrite_pin_ref hm (by decide)).trans ((if_neg (by decide)).trans (if_neg (by decide)))

/-- What the reset pulse leaves of the reference chip (R172). -/
theorem refReset_eq (s : State) :
    refReset s = s.withChip { s.chip with
      trxStatus := s.chip.trxStatus.extractLsb' 5 3 ++ stIdle, armed := false
      evtEn := 0, ctrl := 0, txPwr := 0, channel := refResetChannel } := by
  simp only [refReset, setArmed, setChipState, State.withChip]

/-- The reference chip is reset at the rise of the pulse, and reports `IDLE`. -/
theorem chipWrite_pinReset_ref (href : s.chipModel = .ref) :
    ∃ c, chipWrite .pin pinReset s = s.withChip c ∧ c.fb = s.chip.fb ∧
      c.trxStatus.extractLsb' 0 5 = stIdle := by
  have hwrite : chipWrite .pin pinReset s = refReset (s.withChip { s.chip with pin := pinReset }) :=
    (chipWrite_pin_ref href (by decide)).trans (if_pos rfl)
  rw [refReset_eq] at hwrite
  exact ⟨_, hwrite, rfl, chipState_setChipState stIdle s⟩

/-! ## TERMINATE (R154) -/

/-- On the reference chip FORCE_IDLE returns 1, the chip at `IDLE` (R160, R166, R171). -/
theorem forceIdle_returns_ref (hquiet : s.undisturbed = true) (href : s.chipModel = .ref) (x : Locals)
    (f : Frame) (fs : List Frame) :
    ∃ c, Reaches (moveTo (.forceIdle .S1) x (f :: fs) s)
        (moveTo f.label { f.loc with ok := true } fs (s.withChip c)) ∧
      c.fb = s.chip.fb ∧ c.trxStatus.extractLsb' 0 5 = stIdle := by
  let idle : Byte := s.chip.trxStatus.extractLsb' 5 3 ++ stIdle
  by_cases hasleep : chipState s = stAsleep
  · exact ⟨{ s.chip with trxCmd := 0x10, trxStatus := idle }, ⟨9, forceIdle_ref_asleep hquiet href hasleep x f fs⟩,
      rfl, chipState_setChipState stIdle s⟩
  · exact ⟨{ s.chip with trxCmd := 0x08, armed := false, trxStatus := idle },
      ⟨3, forceIdle_ref_awake hquiet href hasleep x f fs⟩, rfl, chipState_setChipState stIdle s⟩

/-- Whatever FORCE_IDLE answers, its caller goes on, and only the chip has changed; the reference chip has
come to `IDLE`. -/
theorem forceIdle_returns (hquiet : s.undisturbed = true) (x : Locals) (f : Frame) (fs : List Frame) :
    ∃ ok c, Reaches (moveTo (.forceIdle .S1) x (f :: fs) s)
        (moveTo f.label { f.loc with ok := ok } fs (s.withChip c)) ∧
      (s.chipModel = .ref → c.trxStatus.extractLsb' 0 5 = stIdle) := by
  cases hm : s.chipModel with
  | anyChip =>
    by_cases hidle : chipState s = stIdle
    · exact ⟨true, { s.chip with trxCmd := 0x08 }, ⟨3, forceIdle_anyChip_idle hquiet hm hidle x f fs⟩, nofun⟩
    · exact ⟨false, { s.chip with trxCmd := 0x10 }, ⟨10, forceIdle_anyChip_not_idle hquiet hm hidle x f fs⟩,
        nofun⟩
  | ref =>
    obtain ⟨c, hrun, _, hidle⟩ := forceIdle_returns_ref hquiet hm x f fs
    exact ⟨true, c, hrun, fun _ => hidle⟩

/-- An active TERMINATE clears the activity and calls FORCE_IDLE. -/
theorem terminate_deactivates (hquiet : s.undisturbed = true) (hactive : s.initialized ≠ 0) (x : Locals)
    (rest : List Frame) :
    Reaches (moveTo (.terminate .S1) x rest s)
      (moveTo (.forceIdle .S1) {} (⟨.terminate .S4, x⟩ :: rest) s.deactivated) :=
  .step hquiet (congrArg Host.Outcome.next (if_neg hactive)) <|
  .step hquiet (t := moveTo (.terminate .S3) x rest s.deactivated) rfl <|
  .step (s := s.deactivated) hquiet rfl <|
  .refl _

/-- After FORCE_IDLE, TERMINATE puts the chip to sleep, disables the events and ends. -/
theorem terminate_sleeps (hquiet : s.undisturbed = true) (x : Locals) (rest : List Frame) :
    ∃ c, Reaches (moveTo (.terminate .S4) x rest s) (finish 0 (s.eventless c)) ∧ c.evtEn = 0 ∧
      c.trxCmd = 0x0F ∧ (s.chipModel = .ref → chipState s = stIdle → c.trxStatus.extractLsb' 0 5 = stAsleep) := by
  obtain ⟨c, hwrite, hcmd, hsleep⟩ := chipWrite_sleep s
  refine ⟨{ c with evtEn := 0 }, ?_, rfl, hcmd, hsleep⟩
  refine .write hquiet (r := .trxCmd) (v := cmdSleep) (by decide) rfl ?_
  rw [hwrite]
  refine .write (s := s.withChip c) hquiet (r := .evtEn) (v := evtEnNone) (by decide) rfl ?_
  rw [chipWrite_evtEnNone]
  exact .step (undisturbed_eventless (s := s.withChip c) hquiet _) rfl (.refl _)

/-- Settles O29: inactive, it ends at its check; active, it runs through FORCE_IDLE, whatever that answers. -/
theorem terminateDeactivates : Obligations.TerminateDeactivates := by
  unfold Obligations.TerminateDeactivates
  intro s hquiet hidle
  constructor
  · intro h0
    exact (steps_of_accepted hidle (.terminate .S1) {} 1).trans
      (steps_answer hquiet hidle (v := 0) (congrArg _ (if_pos h0)))
  · intro hactive
    have hcall := terminate_deactivates (s := s.accepted) hquiet hactive { a32 := s.addr } []
    obtain ⟨ok, c, hreturn, hcidle⟩ := forceIdle_returns (s := s.accepted.deactivated) hquiet {}
      ⟨.terminate .S4, { a32 := s.addr }⟩ []
    obtain ⟨c', hend, hevt, hcmd, hsleep⟩ := terminate_sleeps (s := s.accepted.deactivated.withChip c) hquiet
      { a32 := s.addr, ok := ok } []
    obtain ⟨k, hk⟩ := (hcall.trans hreturn).trans hend
    rw [finish_accepted (u := (s.accepted.deactivated.withChip c).eventless c') hidle 0 rfl] at hk
    exact ⟨k, _, (steps_of_accepted hidle (.terminate .S1) {} k).trans hk, rfl, hevt, hcmd,
      fun href => hsleep href (hcidle href)⟩

/-! ## INIT (R150, R151, R153) -/

/-- INIT's locals past its wait (R151). -/
def initLocals (x : Locals) (s : State) : Locals :=
  { x with ch := clampChannel x.a8, phys := physicalChannel (clampChannel x.a8), st := chipState s }

/-- INIT on an inactive block clamps the channel, resets both rings, and reads the chip's state where it is
not `BUSY`. -/
theorem init_resets (hquiet : s.undisturbed = true) (hinactive : s.initialized = 0)
    (hbusy : chipState s ≠ stBusy) (x : Locals) (rest : List Frame) :
    Reaches (moveTo (.init .S1) x rest s) (moveTo (.init .S7) (initLocals x s) rest s.ringsReset) :=
  have hquiet' : (ringReset .rx s).undisturbed = true := hquiet
  have hquiet'' : s.ringsReset.undisturbed = true := hquiet
  .step hquiet (congrArg Host.Outcome.next (if_pos hinactive)) <|
  .step hquiet rfl <|
  .step hquiet (t := moveTo (.init .S4) _ rest (ringReset .rx s)) rfl <|
  .step hquiet' (t := moveTo (.init .S5) _ rest s.ringsReset) rfl <|
  .step hquiet'' (congrArg Host.Outcome.next (if_neg hbusy)) <|
  .step hquiet'' rfl <|
  .refl _

/-- INIT wakes a chip that reported `ASLEEP`; any other it leaves. -/
theorem init_wakes (hquiet : s.undisturbed = true) (x : Locals) (rest : List Frame) :
    ∃ c, Reaches (moveTo (.init .S7) x rest s) (moveTo (.init .S8) x rest (s.withChip c)) ∧
      c.fb = s.chip.fb ∧ (s.chipModel = .anyChip → ∃ v, c = { s.chip with trxCmd := v }) := by
  have next {t t' : State} (h : t = t') : (.next (moveTo (.init .S8) x rest t) : Answer) =
      .next (moveTo (.init .S8) x rest t') := by rw [h]
  by_cases hasleep : x.st = stAsleep
  · obtain ⟨c, hwrite, hfb, hany⟩ := chipWrite_wake s
    refine ⟨c, .write hquiet (r := .trxCmd) (v := cmdWake) (by decide) (next (if_pos hasleep)) ?_, hfb, hany⟩
    rw [hwrite]
    exact .refl _
  · exact ⟨s.chip, .step hquiet (next (if_neg hasleep)) (.refl _), rfl, fun _ => ⟨_, rfl⟩⟩

/-- The reset pulse, and the events disabled (R172, R266). -/
def State.pulsed (s : State) : State :=
  chipWrite .evtEn evtEnNone (chipWrite .pin pinLow (chipWrite .pin pinReset s))

/-- INIT pulses the chip's reset, disables the events, and calls FORCE_IDLE. -/
theorem init_pulses (hquiet : s.undisturbed = true) (x : Locals) (rest : List Frame) :
    Reaches (moveTo (.init .S8) x rest s) (moveTo (.forceIdle .S1) {} (⟨.init .S12, x⟩ :: rest) s.pulsed) := by
  have hhigh := undisturbed_chipWrite (r := .pin) (v := pinReset) (by decide) hquiet
  have hlow := undisturbed_chipWrite (r := .pin) (v := pinLow) (by decide) hhigh
  have hnone := undisturbed_chipWrite (r := .evtEn) (v := evtEnNone) (by decide) hlow
  exact .write hquiet (r := .pin) (v := pinReset) (by decide) rfl <|
    .write hhigh (r := .pin) (v := pinLow) (by decide) rfl <|
    .write hlow (r := .evtEn) (v := evtEnNone) (by decide) rfl <|
    .step hnone rfl <|
    .refl _

/-- A chip that reacts in its own steps takes the pulse as its writes. -/
theorem pulsed_anyChip (hany : s.chipModel = .anyChip) :
    s.pulsed = s.eventless { s.chip with pin := 0x00, evtEn := 0x00 } := by
  rw [State.pulsed, chipWrite_pin_anyChip hany (by decide), chipWrite_pinLow, chipWrite_evtEnNone]
  rfl

/-- The reference chip is reset by the pulse. -/
theorem pulsed_ref (href : s.chipModel = .ref) :
    ∃ c, s.pulsed = s.eventless c ∧ c.fb = s.chip.fb ∧ c.trxStatus.extractLsb' 0 5 = stIdle := by
  obtain ⟨c, hreset, hfb, hidle⟩ := chipWrite_pinReset_ref href
  refine ⟨{ c with pin := 0x00, evtEn := 0x00 }, ?_, hfb, hidle⟩
  rw [State.pulsed, hreset, chipWrite_pinLow, chipWrite_evtEnNone]
  rfl

/-- On a chip that takes no step INIT comes to FORCE_IDLE with the pulse written and the events disabled. -/
theorem init_calls_anyChip (hquiet : s.undisturbed = true) (hany : s.chipModel = .anyChip) (x : Locals)
    (rest : List Frame) :
    ∃ v, Reaches (moveTo (.init .S7) x rest s)
      (moveTo (.forceIdle .S1) {} (⟨.init .S12, x⟩ :: rest)
        (s.eventless { s.chip with trxCmd := v, pin := 0x00, evtEn := 0x00 })) := by
  obtain ⟨c, hwake, _, hcommand⟩ := init_wakes hquiet x rest
  obtain ⟨v, rfl⟩ := hcommand hany
  have hpulse := init_pulses (s := s.withChip { s.chip with trxCmd := v }) hquiet x rest
  rw [pulsed_anyChip (s := s.withChip { s.chip with trxCmd := v }) hany] at hpulse
  exact ⟨v, hwake.trans hpulse⟩

/-- On the reference chip INIT comes to FORCE_IDLE with the chip reset and the events disabled. -/
theorem init_calls_ref (hquiet : s.undisturbed = true) (href : s.chipModel = .ref) (x : Locals)
    (rest : List Frame) :
    ∃ c, Reaches (moveTo (.init .S7) x rest s)
        (moveTo (.forceIdle .S1) {} (⟨.init .S12, x⟩ :: rest) (s.eventless c)) ∧
      c.fb = s.chip.fb ∧ c.trxStatus.extractLsb' 0 5 = stIdle := by
  obtain ⟨c, hwake, hfb, _⟩ := init_wakes hquiet x rest
  have hpulse := init_pulses (s := s.withChip c) hquiet x rest
  obtain ⟨c', hpulsed, hfb', hidle⟩ := pulsed_ref (s := s.withChip c) href
  rw [hpulsed] at hpulse
  exact ⟨c', hwake.trans hpulse, hfb'.trans hfb, hidle⟩

/-- On a chip that takes no step and does not report `IDLE`, the three attempts fail and INIT ends (R153). -/
theorem init_aborts (hquiet : s.undisturbed = true) (hany : s.chipModel = .anyChip)
    (hne : chipState s ≠ stIdle) (x : Locals) (rest : List Frame) :
    Reaches (moveTo (.init .S7) x rest s)
      (finish 0 (s.eventless { s.chip with trxCmd := 0x10, pin := 0x00, evtEn := 0x00 })) := by
  obtain ⟨v, hcall⟩ := init_calls_anyChip hquiet hany x rest
  have hquiet' := undisturbed_eventless hquiet
  have hfails : Reaches _ (moveTo (.init .S12) { x with ok := false } rest
      (s.eventless { s.chip with trxCmd := 0x10, pin := 0x00, evtEn := 0x00 })) :=
    ⟨10, forceIdle_anyChip_not_idle (s := s.eventless { s.chip with trxCmd := v, pin := 0x00, evtEn := 0x00 })
      (hquiet' _) hany hne {} ⟨.init .S12, x⟩ rest⟩
  exact (hcall.trans hfails).trans (.step (hquiet' _) rfl (.refl _))

/-- Settles O28: the three attempts of FORCE_IDLE fail, and INIT ends past it. -/
theorem initAbortsWhereIdleIsNeverReported : Obligations.InitAbortsWhereIdleIsNeverReported := by
  unfold Obligations.InitAbortsWhereIdleIsNeverReported
  intro s a8 hquiet hidle hinactive hany hne hbusy
  have hreset := init_resets (s := s.accepted) hquiet hinactive hbusy { a8 := a8, a32 := s.addr } []
  obtain ⟨k, hk⟩ := hreset.trans (init_aborts (s := s.accepted.ringsReset) hquiet hany hne _ [])
  rw [finish_accepted (u := s.accepted.ringsReset.eventless _) hidle 0 rfl] at hk
  exact ⟨k, _, (steps_of_accepted hidle (.init .S1) { a8 := a8 } k).trans hk, rfl⟩

/-! ## The end of INIT -/

/-- The chip as INIT leaves it (R150). -/
def State.configured (s : State) (phys : Byte) : State :=
  chipWrite .trxCmd cmdListen
    (chipWrite .txPwr txPwrFull
      (chipWrite .channel phys (chipWrite .evtEn evtEnAll (chipWrite .ctrl ctrlAutoCrc s))))

/-- The three events enabled (R266). -/
def allEvents : EventBits := { frameStart := true, frameEnd := true, txComplete := true }

/-- Another chip behind the port, and the events enabled. -/
def State.listening (s : State) (c : Chip) : State := { s with chip := c, en := allEvents }

/-- The write that enables the events keeps those that were latched (R266). -/
theorem chipWrite_evtEnAll (s : State) :
    chipWrite .evtEn evtEnAll s = s.listening { s.chip with evtEn := 0x4C } := by
  have hen : eventEnables evtEnAll = allEvents := by decide
  have hmask : s.pend.mask allEvents = s.pend := by simp [EventBits.mask, allEvents]
  rw [chipWrite, hen, hmask]
  rfl

/-- `LISTEN` on the reference chip where it reports `IDLE` (R167). -/
theorem chipWrite_listen_ref (href : s.chipModel = .ref) (hidle : chipState s = stIdle) :
    chipWrite .trxCmd cmdListen s = s.withChip { s.chip with
      trxCmd := 0x06, trxStatus := s.chip.trxStatus.extractLsb' 5 3 ++ stListening, armed := false } :=
  (chipWrite_trxCmd_ref href (by decide)).trans (if_pos (.inl hidle))

/-- INIT leaves the reference chip programmed and LISTENING (R150). -/
theorem configured_ref (href : s.chipModel = .ref) (hidle : chipState s = stIdle) (phys : Byte) :
    ∃ c, s.configured phys = s.listening c ∧ c.channel = phys ∧ c.ctrl = 0x20 ∧ c.evtEn = 0x4C ∧
      c.txPwr = 0x00 ∧ c.trxCmd = 0x06 ∧ c.trxStatus.extractLsb' 0 5 = stListening ∧ c.fb = s.chip.fb := by
  let c := { s.chip with ctrl := 0x20, evtEn := 0x4C, channel := phys, txPwr := 0x00 }
  have hplain : chipWrite .txPwr txPwrFull
      (chipWrite .channel phys (chipWrite .evtEn evtEnAll (chipWrite .ctrl ctrlAutoCrc s))) = s.listening c := by
    rw [chipWrite_evtEnAll]
    rfl
  have hlisten := chipWrite_listen_ref (s := s.listening c) href hidle
  refine ⟨{ c with trxCmd := 0x06, trxStatus := c.trxStatus.extractLsb' 5 3 ++ stListening, armed := false },
    ?_, rfl, rfl, rfl, rfl, rfl, chipState_setChipState stListening s, rfl⟩
  rw [State.configured, hplain, hlisten]
  rfl

/-- The block active on a channel (R150, S18). -/
def State.activated (s : State) (ch : BitVec 5) : State :=
  { s with rxOverflow := 0, txIdle := true, initialized := ch }

/-- Past FORCE_IDLE, INIT programs the chip and ends with the block active. -/
theorem init_activates (hquiet : s.undisturbed = true) (hok : x.ok = true) (rest : List Frame) :
    Reaches (moveTo (.init .S12) x rest s) (finish 0 ((s.configured x.phys).activated x.ch)) := by
  have hctrl := undisturbed_chipWrite (r := .ctrl) (v := ctrlAutoCrc) rfl hquiet
  have hevt := undisturbed_chipWrite (r := .evtEn) (v := evtEnAll) rfl hctrl
  have hchannel := undisturbed_chipWrite (r := .channel) (v := x.phys) rfl hevt
  have hpwr := undisturbed_chipWrite (r := .txPwr) (v := txPwrFull) rfl hchannel
  have hlisten := undisturbed_chipWrite (r := .trxCmd) (v := cmdListen) (by decide) hpwr
  exact .step hquiet (t := moveTo (.init .S13) x rest s) (congrArg Host.Outcome.next (if_pos hok)) <|
    .write hquiet (r := .ctrl) (v := ctrlAutoCrc) rfl rfl <|
    .write hctrl (r := .evtEn) (v := evtEnAll) rfl rfl <|
    .write hevt (r := .channel) (v := x.phys) rfl rfl <|
    .write hchannel (r := .txPwr) (v := txPwrFull) rfl rfl <|
    .write hpwr (r := .trxCmd) (v := cmdListen) (by decide) rfl <|
    .step hlisten rfl <|
    .refl _

/-- The channel INIT takes, as a number (R151). -/
theorem clampChannel_toNat (a8 : Byte) :
    (clampChannel a8).toNat = if 1 ≤ a8.toNat ∧ a8.toNat ≤ 16 then a8.toNat else 1 := by
  by_cases h : 1 ≤ a8.toNat ∧ a8.toNat ≤ 16
  · have hclamp : clampChannel a8 = BitVec.ofNat 5 a8.toNat := if_pos h
    rw [hclamp, if_pos h, BitVec.toNat_ofNat]
    omega
  · have hclamp : clampChannel a8 = BitVec.ofNat 5 1 := if_neg h
    rw [hclamp, if_neg h]
    rfl

/-- The physical channel is the logical one plus 10 (R151). -/
theorem physicalChannel_toNat (ch : BitVec 5) : (physicalChannel ch).toNat = ch.toNat + 10 := by
  have := ch.isLt
  rw [physicalChannel, Config.chOffset, BitVec.toNat_ofNat]
  omega

/-- On the reference chip FORCE_IDLE succeeds after the reset pulse, and INIT goes on to its end. -/
theorem init_completes_ref (hquiet : s.undisturbed = true) (href : s.chipModel = .ref) (x : Locals)
    (rest : List Frame) :
    ∃ c c', Reaches (moveTo (.init .S7) x rest s) (finish 0 (((s.eventless c').listening c).activated x.ch)) ∧
      c.channel = x.phys ∧ c.ctrl = 0x20 ∧ c.evtEn = 0x4C ∧ c.txPwr = 0x00 ∧ c.trxCmd = 0x06 ∧
      c.trxStatus.extractLsb' 0 5 = stListening ∧ c.fb = s.chip.fb := by
  have hquiet' := undisturbed_eventless hquiet
  obtain ⟨c₁, hcall, hfb₁, _⟩ := init_calls_ref hquiet href x rest
  obtain ⟨c₂, hreturn, hfb₂, hidle⟩ := forceIdle_returns_ref (s := s.eventless c₁) (hquiet' c₁) href {}
    ⟨.init .S12, x⟩ rest
  obtain ⟨c₃, hconfigured, hchannel, hctrl, hevt, hpwr, hcmd, hlistening, hfb₃⟩ :=
    configured_ref (s := s.eventless c₂) href hidle x.phys
  have hend := init_activates (s := s.eventless c₂) (x := { x with ok := true }) (hquiet' c₂) rfl rest
  rw [hconfigured] at hend
  exact ⟨c₃, c₂, (hcall.trans hreturn).trans hend, hchannel, hctrl, hevt, hpwr, hcmd, hlistening,
    hfb₃.trans (hfb₂.trans hfb₁)⟩

/-- Settles O27: INIT passes its checks, and completes on the reference chip. -/
theorem initActivatesOnTheReferenceChip : Obligations.InitActivatesOnTheReferenceChip := by
  unfold Obligations.InitActivatesOnTheReferenceChip
  intro s a8 hquiet hidle hinactive href hbusy
  have hreset := init_resets (s := s.accepted) hquiet hinactive hbusy { a8 := a8, a32 := s.addr } []
  obtain ⟨c, c', hrun, hchannel, hctrl, hevt, hpwr, hcmd, hlistening, hfb⟩ :=
    init_completes_ref (s := s.accepted.ringsReset) hquiet href
      (initLocals { a8 := a8, a32 := s.addr } s.accepted) []
  obtain ⟨k, hk⟩ := hreset.trans hrun
  rw [finish_accepted (u := ((s.accepted.ringsReset.eventless c').listening c).activated _) hidle 0 rfl] at hk
  refine ⟨k, _, (steps_of_accepted hidle (.init .S1) { a8 := a8 } k).trans hk, rfl, clampChannel_toNat a8, ?_, hctrl,
    hevt, hpwr, hcmd, hlistening, hfb⟩
  exact (congrArg BitVec.toNat hchannel).trans (physicalChannel_toNat (clampChannel a8))

end Sys2Proof.Machine

/-! The event handlers (42_event_handlers.md R181 to R185) and the steps of the air (R180). -/

namespace Sys2Proof.Machine

variable {s : State}

/-! ## Storing a payload (R182, R184) -/

/-- Free places of `RX` (40_ring_buffer.md R125). -/
theorem ringCapRem_rx (s : State) : ringCapRem .rx s = s.rx.size.toNat - s.rx.length.toNat := rfl

/-- A byte for which `RX` has room is appended. -/
theorem acceptPayload_cons_of_room (h : s.rx.length.toNat < s.rx.size.toNat) (b : Byte) (bs : List Byte) :
    acceptPayload (b :: bs) s = acceptPayload bs { s with rx := s.rx.pushed b } := by
  rw [acceptPayload, ringPush_of_room (sel := .rx) h b]
  rfl

/-- A byte that finds `RX` full is dropped and counted. -/
theorem acceptPayload_cons_of_full (h : s.rx.size.toNat ≤ s.rx.length.toNat) (b : Byte) (bs : List Byte) :
    acceptPayload (b :: bs) s = acceptPayload bs { s with rxOverflow := s.rxOverflow + 1 } := by
  rw [acceptPayload, ringPush_of_full (sel := .rx) h b]
  rfl

/-- One byte counted and then `n` more (10_state.md R27). -/
theorem rxOverflow_succ (c : Half) (n : Nat) : c + 1 + BitVec.ofNat 16 n = c + BitVec.ofNat 16 (n + 1) := by
  rw [Nat.add_comm n, BitVec.ofNat_add, ← BitVec.add_assoc]
  rfl

/-- The push loop of onFrameEnd appends the bytes for which a sound `RX` has room, in order, and counts the
rest (R184). -/
theorem acceptPayload_eq (bs : List Byte) (s : State) (hwf : s.rx.wf = true) :
    ∃ r : Ring,
      acceptPayload bs s = { s with
        rx := r, rxOverflow := s.rxOverflow + BitVec.ofNat 16 (bs.length - ringCapRem .rx s) } ∧
      r.contents = s.rx.contents ++ (bs.take (ringCapRem .rx s)).map some ∧
      r.size = s.rx.size ∧ r.wf = true := by
  induction bs generalizing s with
  | nil => exact ⟨s.rx, by simp [acceptPayload], by simp, rfl, hwf⟩
  | cons b bs ih =>
    rcases Nat.lt_or_ge s.rx.length.toNat s.rx.size.toNat with hroom | hfull
    · obtain ⟨r, heq, hcontents, hsize, hr⟩ := ih { s with rx := s.rx.pushed b } (pushed_wf hwf b hroom)
      have hfree : ringCapRem .rx s = ringCapRem .rx { s with rx := s.rx.pushed b } + 1 := by
        rw [ringCapRem_rx, ringCapRem_rx, pushed_length b hroom, pushed_size]
        omega
      refine ⟨r, ?_, ?_, hsize, hr⟩
      · rw [acceptPayload_cons_of_room hroom, heq, hfree, List.length_cons, Nat.add_sub_add_right]
      · rw [hcontents, contents_pushed b hroom, hfree, List.take_succ_cons, List.map_cons, List.append_assoc]
        rfl
    · obtain ⟨r, heq, hcontents, hsize, hr⟩ := ih { s with rxOverflow := s.rxOverflow + 1 } hwf
      have hfree : ringCapRem .rx s = 0 := Nat.sub_eq_zero_of_le hfull
      have hfree' : ringCapRem .rx { s with rxOverflow := s.rxOverflow + 1 } = 0 := hfree
      rw [hfree', List.take_zero] at hcontents
      refine ⟨r, ?_, by rw [hcontents, hfree, List.take_zero], hsize, hr⟩
      rw [acceptPayload_cons_of_full hfull, heq, hfree, hfree', List.length_cons, Nat.sub_zero, Nat.sub_zero,
        ← rxOverflow_succ]

/-! ## The handlers (R181 to R183) -/

/-- onFrameEnd of a frame whose captured `CRC_VALID` is clear (R182). -/
theorem onFrameEnd_of_bad_crc (h : s.qcap.getLsbD 7 = false) : onFrameEnd s = s :=
  if_neg (by rw [crcValid, h]; decide)

/-- onFrameEnd of a frame longer than a frame can be (R183). -/
theorem onFrameEnd_of_too_long {len : Byte} (hcrc : s.qcap.getLsbD 7 = true)
    (h0 : Memory.read s.chip.fb 0 = some len) (hlen : 127 < len.toNat) :
    onFrameEnd s = { s with status.rxlen := true } := by
  have hvalid : crcValid s.qcap = true := hcrc
  have hlong : Config.frameMax < len.toNat := hlen
  simp only [onFrameEnd, if_pos hvalid, readFb_zero h0, if_pos hlong]
  rfl

/-- onFrameEnd of a frame all of whose bytes were written stores all but the last two (R182). -/
theorem onFrameEnd_of_good {len : Byte} {bs : List Byte} (hcrc : s.qcap.getLsbD 7 = true)
    (hfb : s.FbHolds len bs) (hlen : len.toNat ≤ 127) (hbs : bs.length = len.toNat) :
    onFrameEnd s = acceptPayload (bs.take (len.toNat - 2)) s := by
  obtain ⟨h0, hread⟩ := hfb
  have hvalid : crcValid s.qcap = true := hcrc
  have hshort : ¬ Config.frameMax < len.toNat := Nat.not_lt.2 hlen
  have hscratch : readFbRange 1 len.toNat s = (bs, s) := hbs ▸ readFbRange_written 1 bs s hread
  simp only [onFrameEnd, if_pos hvalid, readFb_zero h0, if_neg hshort, hscratch]

/-- The vector of onFrameStart runs its body with the latch cleared (R269). -/
theorem exec_evtFrameStart (s : State) :
    exec .evtFrameStart s = .next (onFrameStart { s with pend.frameStart := false }) := rfl

/-- The vector of onFrameEnd runs its body with the latch cleared (R269). -/
theorem exec_evtFrameEnd (s : State) :
    exec .evtFrameEnd s = .next (onFrameEnd { s with pend.frameEnd := false }) := rfl

/-- Settles O45: the capture is one read of `QUALITY_LIVE`, of the register's byte or of a draw. -/
theorem frameStartCapturesTheQuality : Obligations.FrameStartCapturesTheQuality := by
  unfold Obligations.FrameStartCapturesTheQuality
  intro s
  constructor
  · intro q hlistening hq
    rw [exec_evtFrameStart, onFrameStart,
      readQuality_listening (s := { s with pend.frameStart := false }) hlistening hq]
  · intro h
    rw [exec_evtFrameStart, onFrameStart, readQuality_draw (s := { s with pend.frameStart := false }) h]

/-- Settles O46: the two frames of which onFrameEnd stores nothing. -/
theorem frameEndDiscards : Obligations.FrameEndDiscards := by
  unfold Obligations.FrameEndDiscards
  intro s
  constructor
  · intro hcrc
    rw [exec_evtFrameEnd, onFrameEnd_of_bad_crc (s := { s with pend.frameEnd := false }) hcrc]
  · intro len hcrc h0 hlen
    rw [exec_evtFrameEnd, onFrameEnd_of_too_long (s := { s with pend.frameEnd := false }) hcrc h0 hlen]

/-- The bytes a function gives at the indices 1 to `n`. -/
def frameBytes (p : Nat → Byte) (n : Nat) : List Byte := (List.range n).map fun j => p (1 + j)

@[simp] theorem frameBytes_length (p : Nat → Byte) (n : Nat) : (frameBytes p n).length = n := by
  simp [frameBytes]

theorem take_frameBytes (p : Nat → Byte) (m n : Nat) :
    (frameBytes p n).take m = frameBytes p (min m n) := by
  rw [frameBytes, ← List.map_take, List.take_range, frameBytes]

/-- A frame buffer written at the indices 1 to the length holds these bytes. -/
theorem fbHolds_frameBytes {len : Byte} {p : Nat → Byte} (h0 : Memory.read s.chip.fb 0 = some len)
    (hp : ∀ i, 1 ≤ i → i ≤ len.toNat → Memory.read s.chip.fb i = some (p i)) :
    s.FbHolds len (frameBytes p len.toNat) := by
  refine ⟨h0, fun j hj => ?_⟩
  rw [frameBytes_length] at hj
  rw [hp (1 + j) (by omega) (by omega)]
  simp [frameBytes]

/-- Settles O47: the frame is good, so onFrameEnd is its push loop over all but the last two bytes. -/
theorem frameEndAcceptsThePayload : Obligations.FrameEndAcceptsThePayload := by
  unfold Obligations.FrameEndAcceptsThePayload
  intro s len p hwf hcrc h0 hlen hp
  have hgood := onFrameEnd_of_good (s := { s with pend.frameEnd := false }) hcrc (fbHolds_frameBytes h0 hp) hlen
    (frameBytes_length p len.toNat)
  rw [take_frameBytes, Nat.min_eq_left (Nat.sub_le _ _)] at hgood
  obtain ⟨r, heq, hcontents, hsize, hr⟩ :=
    acceptPayload_eq (frameBytes p (len.toNat - 2)) { s with pend.frameEnd := false } hwf
  rw [frameBytes_length] at heq
  rw [take_frameBytes, frameBytes, List.map_map] at hcontents
  exact ⟨_, by rw [exec_evtFrameEnd, hgood, heq], rfl, hcontents, hsize, hr⟩

/-- Settles O48: the handler's body is empty. -/
theorem txCompleteHasNoEffect : Obligations.TxCompleteHasNoEffect := by
  unfold Obligations.TxCompleteHasNoEffect
  exact fun _ => rfl

/-! ## The air (R180) -/

/-- A latch set to its own value. -/
theorem set_get (b : EventBits) (e : Event) : b.set e (b.get e) = b := by
  cases e <;> rfl

/-- A firing event leaves its latch set where it was set or its enable is 1 (60_exceptions.md R264). -/
theorem fireEvent_eq (e : Event) (s : State) :
    fireEvent e s = { s with pend := s.pend.set e (s.pend.get e || s.en.get e) } := by
  rcases fireEvent_cases e s with ⟨hen, h⟩ | ⟨hen, h⟩
  · rw [h, hen, Bool.or_true]
  · rw [h, hen, Bool.or_false, set_get]

/-- Bytes put into the frame buffer from index `i` up stand there, and every other index is as it was. -/
theorem putFbRange_eq (i : Nat) (bs : List Byte) (s : State) :
    ∃ fb : Memory, putFbRange i bs s = { s with chip.fb := fb } ∧
      (∀ j, (h : j < bs.length) → Memory.read fb (i + j) = some bs[j]) ∧
      ∀ k, k < i ∨ i + bs.length ≤ k → Memory.read fb k = Memory.read s.chip.fb k := by
  induction bs generalizing i s with
  | nil => exact ⟨s.chip.fb, rfl, by simp, fun _ _ => rfl⟩
  | cons b bs ih =>
    obtain ⟨fb, heq, hin, hout⟩ := ih (i + 1) (putFb i b s)
    have hfb : (putFb i b s).chip.fb = Memory.write s.chip.fb i b := rfl
    refine ⟨fb, heq, fun j hj => ?_, fun k hk => ?_⟩
    · cases j with
      | zero => rw [Nat.add_zero, hout i (by omega), hfb, read_write_same, List.getElem_cons_zero]
      | succ j =>
        rw [List.length_cons] at hj
        rw [← Nat.add_assoc, Nat.add_right_comm, hin j (by omega), List.getElem_cons_succ]
    · rw [List.length_cons] at hk
      rw [hout k (by omega), hfb, read_write_other _ (by omega)]

/-- An enabled step of the air is taken. -/
theorem airStep_of_enabled {a : AirStep} (h : airEnabled a s = true) : airStep a s = airAct a s := if_pos h

/-- A step of the air that is not enabled is skipped (log 12). -/
theorem airStep_of_not_enabled {a : AirStep} (h : ¬ airEnabled a s = true) : airStep a s = s := if_neg h

/-- A frame starts only in quiet air, with no frame end pending, while the chip reports `LISTENING`. -/
theorem airEnabled_frameStart (q : Byte) :
    airEnabled (.frameStart q) s = true ↔
      s.airPhase = .quiet ∧ s.pend.frameEnd = false ∧ chipState s = 0x06 := by
  simp [airEnabled, stListening, and_assoc]

/-- A frame ends only inside one, and brings the bytes its length asks for, at most 127. -/
theorem airEnabled_frameEnd (len : Byte) (bs : List Byte) (q : Option Byte) :
    airEnabled (.frameEnd len bs q) s = true ↔ s.airPhase = .inFrame ∧ bs.length = min len.toNat 127 := by
  simp [airEnabled, Config.frameMax]

/-- A frame is abandoned only inside one. -/
theorem airEnabled_abandon : airEnabled .abandon s = true ↔ s.airPhase = .inFrame := by
  simp [airEnabled]

/-- What the end of a frame writes into the frame buffer: the length, and after it the bytes. -/
theorem putFrame_eq (len : Byte) (bs : List Byte) (s : State) :
    ∃ fb : Memory, putFbRange 1 bs (putFb 0 len s) = { s with chip.fb := fb } ∧
      Memory.read fb 0 = some len ∧
      (∀ j, (h : j < bs.length) → Memory.read fb (1 + j) = some bs[j]) ∧
      ∀ i, bs.length < i → Memory.read fb i = Memory.read s.chip.fb i := by
  obtain ⟨fb, heq, hin, hout⟩ := putFbRange_eq 1 bs (putFb 0 len s)
  have hfb : (putFb 0 len s).chip.fb = Memory.write s.chip.fb 0 len := rfl
  refine ⟨fb, heq, ?_, hin, fun i hi => ?_⟩
  · rw [hout 0 (by omega), hfb, read_write_same]
  · rw [hout i (by omega), hfb, read_write_other _ (by omega)]

/-- Settles O51: each step by its guard, and by the fields it writes. -/
theorem airStepsAsEnabled : Obligations.AirStepsAsEnabled := by
  unfold Obligations.AirStepsAsEnabled
  intro s
  refine ⟨?starts, ?startSkipped, ?ends, ?abandons, ?quietSkipped⟩
  case starts =>
    intro q hquiet hpend hlistening
    rw [airStep_of_enabled ((airEnabled_frameStart q).2 ⟨hquiet, hpend, hlistening⟩), airAct, fireEvent_eq]
    rfl
  case startSkipped =>
    intro q h
    refine airStep_of_not_enabled fun hen => ?_
    obtain ⟨hquiet, hpend, hlistening⟩ := (airEnabled_frameStart q).1 hen
    simp [hquiet, hpend, hlistening] at h
  case ends =>
    intro len bs q hin hlen
    obtain ⟨fb, hput, h0, hbytes, hother⟩ := putFrame_eq len bs (setQuality q s)
    have hfb : (setQuality q s).chip.fb = s.chip.fb := by cases q <;> rfl
    refine ⟨_, rfl, ?_⟩
    rw [airStep_of_enabled ((airEnabled_frameEnd len bs q).2 ⟨hin, hlen⟩), airAct, hput, fireEvent_eq]
    refine ⟨?_, h0, hbytes, fun i hi => (hother i hi).trans (congrArg (Memory.read · i) hfb)⟩
    cases q <;> rfl
  case abandons => exact fun hin => airStep_of_enabled (airEnabled_abandon.2 hin)
  case quietSkipped =>
    intro len bs q hquiet
    have hout : s.airPhase ≠ .inFrame := by rw [hquiet]; decide
    exact ⟨airStep_of_not_enabled fun hen => hout ((airEnabled_frameEnd len bs q).1 hen).1,
      airStep_of_not_enabled fun hen => hout (airEnabled_abandon.1 hen)⟩

end Sys2Proof.Machine

/-! LOAD_AND_SEND run to its end (43_frame_assembler.md R200 to R206): the lock, the drain of `TX` into the
frame buffer, and the emission. -/

namespace Sys2Proof.Machine

variable {x : Locals} {s : State} {b : Byte} {bs : List Byte}

/-! ## The lock (R200 S1, S2) -/

/-- The lock wait ends on a chip that takes no step: the reference chip accepts `READY` where it reports
`LISTENING`, `IDLE` or `READY_TO_SEND`; any other chip must report `READY_TO_SEND` already. -/
def State.MayLock (s : State) : Prop :=
  (s.chipModel = .ref ∧ (chipState s = stListening ∨ chipState s = stIdle ∨ chipState s = stReady)) ∨
    (s.chipModel = .anyChip ∧ chipState s = stReady)

/-- `READY` where the lock wait ends (41_radio_fsm.md R169): the chip reports `READY_TO_SEND`, the reference
chip armed, any other chip as it was. -/
theorem chipWrite_ready (h : s.MayLock) :
    ∃ c, chipWrite .trxCmd cmdReady s = s.withChip c ∧ c.fb = s.chip.fb ∧
      c.trxStatus.extractLsb' 0 5 = stReady ∧ (s.chipModel = .ref → c.armed = true) ∧
      (s.chipModel = .anyChip → c.grants = s.chip.grants ∧ c.trxStatus = s.chip.trxStatus) := by
  rcases h with ⟨href, hstate⟩ | ⟨hany, hready⟩
  · have haccepts : chipState s = stIdle ∨ chipState s = stListening ∨ chipState s = stReady :=
      or_left_comm.1 hstate
    exact ⟨_, (chipWrite_trxCmd_ref href (by decide)).trans (if_pos haccepts), rfl,
      chipState_setChipState stReady s, fun _ => rfl, fun hany => (nomatch href.symm.trans hany)⟩
  · exact ⟨_, chipWrite_trxCmd_anyChip hany (by decide), rfl, hready, fun href => (nomatch href.symm.trans hany),
      fun _ => ⟨rfl, rfl⟩⟩

/-- LOAD_AND_SEND comes past its lock wait. -/
theorem loadAndSend_locks (hquiet : s.undisturbed = true) (h : s.MayLock) (x : Locals) (rest : List Frame) :
    ∃ c, Reaches (moveTo (.loadAndSend .S1) x rest s) (moveTo (.loadAndSend .S3) x rest (s.withChip c)) ∧
      c.fb = s.chip.fb ∧ c.trxStatus.extractLsb' 0 5 = stReady ∧ (s.chipModel = .ref → c.armed = true) ∧
      (s.chipModel = .anyChip → c.grants = s.chip.grants ∧ c.trxStatus = s.chip.trxStatus) := by
  obtain ⟨c, hwrite, hfb, hready, hchip⟩ := chipWrite_ready h
  refine ⟨c, .write hquiet (r := .trxCmd) (v := cmdReady) (by decide) rfl ?_, hfb, hready, hchip⟩
  rw [hwrite]
  exact .step (s := s.withChip c) hquiet (congrArg Host.Outcome.next (if_pos hready)) (.refl _)

/-! ## The drain (R200 S3 to S5, R201, R202) -/

/-- The drain stops at the longest payload, and where `TX` is empty. -/
theorem stepLoadAndSend_stops (h : x.n = s.maxPayload - 1 ∨ s.tx.length = 0) (rest : List Frame) :
    stepLoadAndSend .S4 x rest s = .next (moveTo (.loadAndSend .S6) x rest s) := by
  unfold stepLoadAndSend
  dsimp only
  split
  · rfl
  · rename_i hmore
    rw [ringPop_of_empty (sel := .tx) (h.resolve_left hmore)]

/-- The drain takes the oldest byte of `TX` while there is one and the payload has room. -/
theorem stepLoadAndSend_pops (hroom : x.n ≠ s.maxPayload - 1) (hne : s.tx.length ≠ 0)
    (hread : Memory.read s.tx.store s.tx.current.toNat = some b) (rest : List Frame) :
    stepLoadAndSend .S4 x rest s =
      .next (moveTo (.loadAndSend .S5) { x with b := b } rest (s.setRing .tx s.tx.popped)) := by
  unfold stepLoadAndSend
  dsimp only
  rw [if_neg hroom, ringPop_of_nonempty (sel := .tx) hne hread]
  rfl

/-- The byte taken goes into the frame buffer, where the drain has room for it. -/
theorem stepLoadAndSend_stores (hroom : 1 + x.n < 128) (rest : List Frame) (s : State) :
    stepLoadAndSend .S5 x rest s =
      .next (moveTo (.loadAndSend .S4) { x with n := x.n + 1 } rest (putFb (1 + x.n) x.b s)) := by
  unfold stepLoadAndSend
  dsimp only
  rw [writeFb_of_lt hroom, andThen_next]

/-- The frame buffer and `TX` are written apart. -/
theorem putFbRange_setRing (i : Nat) (bs : List Byte) (r : Ring) (s : State) :
    putFbRange i bs (s.setRing .tx r) = (putFbRange i bs s).setRing .tx r := by
  induction bs generalizing i s with
  | nil => rfl
  | cons b bs ih => exact ih (i + 1) (putFb i b s)

/-- From its loop on, the drain moves the bytes for which the payload has room from `TX`, oldest first, into
the frame buffer. -/
theorem loadAndSend_drains (hquiet : s.undisturbed = true) (hwf : s.tx.wf = true)
    (hn : x.n ≤ s.maxPayload - 1) (hbs : s.tx.contents.take (s.maxPayload - 1 - x.n) = bs.map some)
    (rest : List Frame) :
    ∃ y r, Reaches (moveTo (.loadAndSend .S4) x rest s)
        (moveTo (.loadAndSend .S6) y rest ((putFbRange (1 + x.n) bs s).setRing .tx r)) ∧
      y.n = x.n + bs.length ∧ r.contents = s.tx.contents.drop bs.length ∧ r.size = s.tx.size := by
  induction bs generalizing x s with
  | nil =>
    have hstop : x.n = s.maxPayload - 1 ∨ s.tx.length = 0 := by
      rcases List.take_eq_nil_iff.1 hbs with hfull | hnil
      · exact .inl (by omega)
      · exact .inr ((contents_eq_nil_iff _).1 hnil)
    have hstops := stepLoadAndSend_stops (s := moveTo (.loadAndSend .S4) x rest s) hstop rest
    exact ⟨x, s.tx, .step hquiet hstops (.refl _), rfl, rfl, rfl⟩
  | cons b bs ih =>
    obtain ⟨_, _, _, hmax, _, _⟩ := (state_legal_iff s).1 ((undisturbed_iff s).1 hquiet).1
    have hroom : x.n ≠ s.maxPayload - 1 := fun hfull => by
      rw [hfull, Nat.sub_self, List.take_zero] at hbs
      exact List.cons_ne_nil _ _ hbs.symm
    have hne : s.tx.length ≠ 0 := fun h0 => by
      rw [(contents_eq_nil_iff _).2 h0, List.take_nil] at hbs
      exact List.cons_ne_nil _ _ hbs.symm
    have hcontents := contents_eq_cons_popped hwf hne
    have hmore : s.maxPayload - 1 - x.n = s.maxPayload - 1 - (x.n + 1) + 1 := by omega
    rw [hcontents, hmore, List.take_succ_cons, List.map_cons, List.cons.injEq] at hbs
    obtain ⟨hread, htail⟩ := hbs
    let u := putFb (1 + x.n) b (s.setRing .tx s.tx.popped)
    obtain ⟨y, r, hrun, hy, hr, hsize⟩ := ih (s := u) (x := { x with b := b, n := x.n + 1 }) hquiet
      (popped_wf hwf) (show x.n + 1 ≤ s.maxPayload - 1 by omega) htail
    have hput : putFbRange (1 + (x.n + 1)) bs u = (putFbRange (1 + x.n) (b :: bs) s).setRing .tx s.tx.popped :=
      putFbRange_setRing (1 + x.n) (b :: bs) s.tx.popped s
    have hpops := stepLoadAndSend_pops (s := moveTo (.loadAndSend .S4) x rest s) hroom hne hread rest
    have hstores := stepLoadAndSend_stores (x := { x with b := b }) (by omega : 1 + x.n < 128) rest
      (moveTo (.loadAndSend .S5) { x with b := b } rest (s.setRing .tx s.tx.popped))
    refine ⟨y, r, ?_, ?_, ?_, hsize⟩
    · rw [hput] at hrun
      exact .step hquiet hpops <| .step (s := s.setRing .tx s.tx.popped) hquiet hstores hrun
    · rw [hy, List.length_cons, Nat.add_assoc, Nat.add_comm 1]
    · rw [hr, hcontents, List.length_cons, List.drop_succ_cons]
      rfl

/-! ## The staged frame (R203) -/

/-- `fb` is the frame buffer `old` with the frame of the bytes `bs` staged in it: the length of R203, the
bytes, and a zero terminator. -/
structure Staged (bs : List Byte) (old fb : Memory) : Prop where
  len : Memory.read fb 0 = some (BitVec.ofNat 8 (bs.length + 2))
  bytes : ∀ j, (h : j < bs.length) → Memory.read fb (1 + j) = some bs[j]
  terminator : Memory.read fb (1 + bs.length) = some 0
  other : ∀ i, bs.length + 1 < i → Memory.read fb i = Memory.read old i

/-- The bytes in place, the terminator and then the length complete the frame. -/
theorem staged_of_bytes {old fb : Memory} (hin : ∀ j, (h : j < bs.length) → Memory.read fb (1 + j) = some bs[j])
    (hout : ∀ i, i < 1 ∨ 1 + bs.length ≤ i → Memory.read fb i = Memory.read old i) :
    Staged bs old (Memory.write (Memory.write fb (1 + bs.length) 0x00) 0 (BitVec.ofNat 8 (bs.length + 2))) where
  len := read_write_same _ _ _
  bytes j hj := by rw [read_write_other _ (by omega), read_write_other _ (by omega), hin j hj]
  terminator := by rw [read_write_other _ (by omega), read_write_same]
  other i hi := by rw [read_write_other _ (by omega), read_write_other _ (by omega), hout i (by omega)]

/-- The state with `TX`, the chip and `txLog` as LOAD_AND_SEND leaves them. -/
def State.sent (s : State) (r : Ring) (c : Chip) (log : List TxRecord) : State :=
  { s with tx := r, chip := c, txLog := log }

/-- A ring of the capacity of `TX`, another chip and another log disturb nobody. -/
theorem undisturbed_sent (hquiet : s.undisturbed = true) {r : Ring} (hsize : r.size = s.tx.size) (c : Chip)
    (log : List TxRecord) : (s.sent r c log).undisturbed = true :=
  undisturbed_congr hquiet rfl rfl rfl hsize rfl ((undisturbed_iff s).1 hquiet).2.2

/-- The drained bytes fit the frame buffer, with a length before and a terminator after them. -/
theorem staged_length_le (hquiet : s.undisturbed = true)
    (hbs : s.tx.contents.take (s.maxPayload - 1) = bs.map some) : bs.length ≤ 126 := by
  obtain ⟨_, _, _, hmax, _, _⟩ := (state_legal_iff s).1 ((undisturbed_iff s).1 hquiet).1
  have hlen := congrArg List.length hbs
  rw [List.length_take, List.length_map] at hlen
  omega

/-- Past the lock LOAD_AND_SEND drains `TX` and stages the frame. -/
theorem loadAndSend_stages (hquiet : s.undisturbed = true) (hwf : s.tx.wf = true)
    (hbs : s.tx.contents.take (s.maxPayload - 1) = bs.map some) (x : Locals) (rest : List Frame) :
    ∃ y r fb, Reaches (moveTo (.loadAndSend .S3) x rest s)
        (moveTo (.loadAndSend .S8) y rest (s.sent r { s.chip with fb := fb } s.txLog)) ∧
      Staged bs s.chip.fb fb ∧ r.contents = s.tx.contents.drop bs.length ∧ r.size = s.tx.size := by
  have hlen := staged_length_le hquiet hbs
  obtain ⟨y, r, hdrain, hy, hr, hsize⟩ :=
    loadAndSend_drains (x := { x with n := 0 }) hquiet hwf (Nat.zero_le _) hbs rest
  obtain ⟨fb, hput, hin, hout⟩ := putFbRange_eq 1 bs s
  rw [Nat.zero_add] at hy
  rw [show putFbRange (1 + 0) bs s = { s with chip.fb := fb } from hput] at hdrain
  let u := s.sent r { s.chip with fb := fb } s.txLog
  have hquiet' : u.undisturbed = true := undisturbed_sent hquiet hsize _ _
  have hterminator (v : State) : stepLoadAndSend .S6 y rest v =
      .next (moveTo (.loadAndSend .S7) y rest (putFb (1 + bs.length) 0x00 v)) := by
    rw [stepLoadAndSend, hy, writeFb_of_lt (by omega), andThen_next]
  have hlength (v : State) : stepLoadAndSend .S7 y rest v =
      .next (moveTo (.loadAndSend .S8) y rest (putFb 0 (BitVec.ofNat 8 (bs.length + 2)) v)) := by
    rw [stepLoadAndSend, hy, writeFb_of_lt (by omega), andThen_next]
  refine ⟨y, r, _, .step hquiet (t := moveTo (.loadAndSend .S4) { x with n := 0 } rest s) rfl <|
    hdrain.trans ?_, staged_of_bytes hin hout, hr, hsize⟩
  exact .step (s := u) hquiet' (hterminator _) <|
    .step (s := putFb (1 + bs.length) 0x00 u) hquiet' (hlength _) (.refl _)

/-! ## The emission (R200 S8, R204, R206) -/

/-- The record of a staged frame: its bytes, or `⊥` where its length is above 127 (R206). -/
theorem emissionRecord_staged {old : Memory} (h : Staged bs old s.chip.fb) (hlen : bs.length ≤ 126) :
    emissionRecord s = (stagedRecord bs, s) := by
  have hnat : (BitVec.ofNat 8 (bs.length + 2)).toNat = bs.length + 2 := by
    rw [BitVec.toNat_ofNat]
    omega
  by_cases hfits : bs.length + 2 ≤ 127
  · have hrecord : stagedRecord bs = { len := BitVec.ofNat 8 (bs.length + 2), payload := some bs } := by
      rw [stagedRecord, Config.frameMax, if_pos hfits]
    rw [hrecord]
    exact emissionRecord_payload ⟨h.len, h.bytes⟩ (by omega) (by omega) (by omega)
  · have hrecord : stagedRecord bs = { len := BitVec.ofNat 8 (bs.length + 2), payload := none } := by
      rw [stagedRecord, Config.frameMax, if_neg hfits]
    rw [hrecord]
    exact emissionRecord_bottom h.len (by omega)

/-- A latched `TX_COMPLETE` is taken in a step that changes nothing else (60_exceptions.md R269). -/
theorem txComplete_taken (hquiet : s.undisturbed = true) (pending : Bool) :
    Reaches { s with pend.txComplete := pending } s := by
  obtain ⟨hlegal, hagenda, hpend⟩ := (undisturbed_iff s).1 hquiet
  obtain ⟨hstart, hend, htxc⟩ := (pendingVector_none _).1 hpend
  have hclear : { s with pend.txComplete := false } = s := by rw [← htxc]
  cases pending with
  | false => rw [hclear]; exact .refl s
  | true =>
    have hvector : pendingVector { s.pend with txComplete := true } = some 2 := by
      simp [pendingVector, hstart, hend]
    have hstep : step { s with pend.txComplete := true } = .next { s with pend.txComplete := false } :=
      (step_of_no_agenda (s := { s with pend.txComplete := true }) hlegal hagenda).trans
        (blockStep_of_event (i := .evtTxComplete) hvector rfl)
    exact ⟨1, by rw [steps_succ, hstep, hclear]; rfl⟩

/-- `TX_START` on the reference chip, locked, emits the staged frame; any other chip holds a grant more. -/
theorem loadAndSend_transmits {old : Memory} (hquiet : s.undisturbed = true) (hfb : Staged bs old s.chip.fb)
    (hlen : bs.length ≤ 126) (hready : chipState s = stReady) (harmed : s.chipModel = .ref → s.chip.armed = true)
    (x : Locals) (rest : List Frame) :
    ∃ c log, Reaches (moveTo (.loadAndSend .S8) x rest s)
        (moveTo (.loadAndSend .S9) x rest (s.sent s.tx c log)) ∧
      c.fb = s.chip.fb ∧ c.trxStatus = s.chip.trxStatus ∧
      (s.chipModel = .ref → log = s.txLog ++ [stagedRecord bs] ∧ c.armed = false) ∧
      (s.chipModel = .anyChip → log = s.txLog ∧ c.grants = s.chip.grants + 1) := by
  have written {t : State} (h : chipWrite .trxCmd cmdTxStart (moveTo (.loadAndSend .S8) x rest s) = t) :
      stepFrame ⟨.loadAndSend .S8, x⟩ rest (moveTo (.loadAndSend .S8) x rest s) =
        .next (moveTo (.loadAndSend .S9) x rest t) := by
    rw [← h]
    rfl
  cases hm : s.chipModel with
  | anyChip =>
    exact ⟨{ s.chip with trxCmd := 0x02, grants := s.chip.grants + 1 }, s.txLog,
      .step hquiet (written (chipWrite_txStart_anyChip hm)) (.refl _), rfl, rfl, nofun, fun _ => ⟨rfl, rfl⟩⟩
  | ref =>
    let u := grantEmission { moveTo (.loadAndSend .S8) x rest s with chip.trxCmd := cmdTxStart }
    have hrecord : emissionRecord u = (stagedRecord bs, u) := emissionRecord_staged (old := old) hfb hlen
    have hemits := (chipWrite_txStart_ref (s := moveTo (.loadAndSend .S8) x rest s) hm).trans
      (refTransmit_armed hrecord hready (harmed hm))
    let c := { s.chip with trxCmd := 0x02, armed := false, grants := s.chip.grants + 1 - 1 }
    exact ⟨c, s.txLog ++ [stagedRecord bs], .step hquiet (written hemits) <|
        txComplete_taken (s := moveTo (.loadAndSend .S9) x rest (s.sent s.tx c (s.txLog ++ [stagedRecord bs])))
          hquiet _,
      rfl, rfl, fun _ => ⟨rfl, rfl⟩, nofun⟩

/-! ## The end (R200 S9 to S12, R204, R205) -/

/-- The trigger is a grant and nothing else where the reference chip is not armed any more (R173). -/
theorem chipWrite_trigger (h : s.chipModel = .ref → s.chip.armed = false) :
    chipWrite .pin pinTrigger s =
      s.withChip { s.chip with pin := pinTrigger, grants := s.chip.grants + 1 } := by
  let u := s.withChip { s.chip with pin := pinTrigger, grants := s.chip.grants + 1 }
  have hreact : reactPin pinTrigger u = u := by
    unfold reactPin
    split
    · rfl
    · rename_i href
      have hunarmed : u.chip.armed = false := h href
      exact (if_neg (by decide)).trans ((if_pos rfl).trans (if_neg (by simp [hunarmed])))
  exact hreact

/-- `LISTEN` after the trigger: the reference chip, still at `READY_TO_SEND`, comes to `LISTENING` (R167);
any other chip takes the write alone. -/
theorem chipWrite_listen (hready : chipState s = stReady) :
    ∃ c, chipWrite .trxCmd cmdListen s = s.withChip c ∧ c.fb = s.chip.fb ∧
      (s.chipModel = .ref → c.trxStatus.extractLsb' 0 5 = stListening ∧ c.armed = false) ∧
      (s.chipModel = .anyChip → c.grants = s.chip.grants ∧ c.trxStatus = s.chip.trxStatus) := by
  cases hm : s.chipModel with
  | anyChip => exact ⟨_, chipWrite_trxCmd_anyChip hm (by decide), rfl, nofun, fun _ => ⟨rfl, rfl⟩⟩
  | ref =>
    exact ⟨_, (chipWrite_trxCmd_ref hm (by decide)).trans (if_pos (.inr (.inl hready))), rfl,
      fun _ => ⟨chipState_setChipState stListening s, rfl⟩, nofun⟩

/-- After `TX_START` LOAD_AND_SEND pulses the trigger, lets the chip listen and returns. -/
theorem loadAndSend_returns (hquiet : s.undisturbed = true) (hready : chipState s = stReady)
    (hspent : s.chipModel = .ref → s.chip.armed = false) (x : Locals) (rest : List Frame) :
    ∃ c, Reaches (moveTo (.loadAndSend .S9) x rest s) (returnIgnored rest (s.withChip c)) ∧
      c.fb = s.chip.fb ∧
      (s.chipModel = .ref → c.trxStatus.extractLsb' 0 5 = stListening ∧ c.armed = false) ∧
      (s.chipModel = .anyChip → c.grants = s.chip.grants + 1 ∧ c.trxStatus = s.chip.trxStatus) := by
  let high := s.withChip { s.chip with pin := pinTrigger, grants := s.chip.grants + 1 }
  let low := high.withChip { high.chip with pin := pinLow }
  obtain ⟨c, hlisten, hfb, hchip⟩ :=
    chipWrite_listen (s := moveTo (.loadAndSend .S12) x rest low) hready
  have htrigger : stepFrame ⟨.loadAndSend .S9, x⟩ rest (moveTo (.loadAndSend .S9) x rest s) =
      .next (moveTo (.loadAndSend .S10) x rest high) :=
    (congrArg (fun u => (.next (moveTo (.loadAndSend .S10) x rest u) : Answer))
      (chipWrite_trigger (s := moveTo (.loadAndSend .S9) x rest s) hspent)).trans rfl
  have hreturn : stepFrame ⟨.loadAndSend .S12, x⟩ rest (moveTo (.loadAndSend .S12) x rest low) =
      .next (returnIgnored rest (moveTo (.loadAndSend .S12) x rest (s.withChip c))) :=
    congrArg (fun u => (.next (returnIgnored rest u) : Answer)) hlisten
  have hforgets : returnIgnored rest (moveTo (.loadAndSend .S12) x rest (s.withChip c)) =
      returnIgnored rest (s.withChip c) := by
    cases rest <;> rfl
  rw [hforgets] at hreturn
  have hend : Reaches (moveTo (.loadAndSend .S11) x rest low) (returnIgnored rest (s.withChip c)) :=
    .step (s := low) hquiet (t := moveTo (.loadAndSend .S12) x rest low) rfl <|
    .step (s := low) hquiet hreturn (.refl _)
  have hlow : Reaches (moveTo (.loadAndSend .S10) x rest high) (returnIgnored rest (s.withChip c)) := by
    refine .write (s := high) hquiet (r := .pin) (v := pinLow) (by decide) rfl ?_
    rw [chipWrite_pinLow]
    exact hend
  exact ⟨c, .step hquiet htrigger hlow, hfb, hchip⟩

/-- The return of LOAD_AND_SEND as the fields it writes (10_state.md R46; log 16). -/
theorem returnIgnored_eq (rest : List Frame) (s : State) :
    returnIgnored rest s =
      { s with
        seq := Seq.resumed rest, status.busy := s.status.busy && !rest.isEmpty
        opRes := if rest.isEmpty then .num 0 else s.opRes } := by
  cases rest with
  | nil => simp [returnIgnored, returnSub, Seq.resumed]
  | cons f fs => simp [returnIgnored, returnSub, Seq.resumed]

/-! ## The whole run -/

/-- LOAD_AND_SEND from its call to its return: what it leaves of `TX`, of the chip and of `txLog`. -/
theorem loadAndSend_runs (hquiet : s.undisturbed = true) (hwf : s.tx.wf = true)
    (hbs : s.tx.contents.take (s.maxPayload - 1) = bs.map some) (hlock : s.MayLock) (x : Locals)
    (rest : List Frame) :
    ∃ r c log, Reaches (moveTo (.loadAndSend .S1) x rest s) (returnIgnored rest (s.sent r c log)) ∧
      r.contents = s.tx.contents.drop bs.length ∧ r.size = s.tx.size ∧ Staged bs s.chip.fb c.fb ∧
      (s.chipModel = .ref → log = s.txLog ++ [stagedRecord bs] ∧
        c.trxStatus.extractLsb' 0 5 = stListening ∧ c.armed = false) ∧
      (s.chipModel = .anyChip → log = s.txLog ∧ c.grants = s.chip.grants + 2 ∧
        c.trxStatus = s.chip.trxStatus) := by
  obtain ⟨c₁, hrun₁, hfb₁, hready, harmed, hany₁⟩ := loadAndSend_locks hquiet hlock x rest
  obtain ⟨y, r, fb, hrun₂, hstaged, hr, hsize⟩ :=
    loadAndSend_stages (s := s.withChip c₁) hquiet hwf hbs x rest
  let u := s.sent r { c₁ with fb := fb } s.txLog
  have hquiet' : u.undisturbed = true := undisturbed_sent hquiet hsize _ _
  obtain ⟨c₃, log, hrun₃, hfb₃, hstatus₃, href₃, hany₃⟩ :=
    loadAndSend_transmits (s := u) hquiet' hstaged (staged_length_le hquiet hbs) hready harmed y rest
  have hready₃ : chipState (u.sent r c₃ log) = stReady :=
    (congrArg (BitVec.extractLsb' 0 5) hstatus₃).trans hready
  obtain ⟨c₄, hrun₄, hfb₄, href₄, hany₄⟩ :=
    loadAndSend_returns (s := u.sent r c₃ log) hquiet' hready₃ (fun href => (href₃ href).2) y rest
  refine ⟨r, c₄, log, ((hrun₁.trans hrun₂).trans hrun₃).trans hrun₄, hr, hsize, ?staged,
    fun href => ⟨(href₃ href).1, href₄ href⟩, fun hany => ?still⟩
  case staged =>
    rw [hfb₄, show (u.sent r c₃ log).chip.fb = fb from hfb₃, ← hfb₁]
    exact hstaged
  case still =>
    obtain ⟨hgrants₁, hstatus₁⟩ := hany₁ hany
    obtain ⟨hlog, hgrants₃⟩ := hany₃ hany
    obtain ⟨hgrants₄, hstatus₄⟩ := hany₄ hany
    refine ⟨hlog, ?_, hstatus₄.trans (hstatus₃.trans hstatus₁)⟩
    have hgrants₃ : c₃.grants = c₁.grants + 1 := hgrants₃
    have hgrants₄ : c₄.grants = c₃.grants + 1 := hgrants₄
    omega

/-- Settles O20: the whole run, its return as the fields it writes. -/
theorem loadAndSendEmitsTheStagedFrame : Obligations.LoadAndSendEmitsTheStagedFrame := by
  unfold Obligations.LoadAndSendEmitsTheStagedFrame
  intro s rest bs hquiet hseq hwf hbs hlock
  obtain ⟨r, c, log, ⟨k, hk⟩, hr, hsize, hstaged, href, hany⟩ :=
    loadAndSend_runs hquiet hwf hbs hlock {} rest
  rw [← eq_moveTo hseq, returnIgnored_eq] at hk
  exact ⟨k, _, hk, rfl, hr, hsize, hstaged.len, hstaged.bytes, hstaged.terminator, hstaged.other, href, hany⟩

end Sys2Proof.Machine

/-! The receive-side commands run to their end (44_transport_api.md R221 to R224), and what each command
answers while the block is inactive (R231). -/

namespace Sys2Proof.Machine

variable {l : Label} {x : Locals} {rest : List Frame} {s u : State} {bs : List Byte}

/-! ## Commands to their end -/

/-- A command whose inactive check fails answers at its first step (R231). -/
theorem command_inactive (hquiet : s.undisturbed = true) (hidle : s.status.busy = false)
    (h0 : s.initialized = 0) {v : Int} {w : State}
    (hcheck : stepFrame ⟨l, { x with a32 := s.addr }⟩ [] (moveTo l { x with a32 := s.addr } [] s.accepted) =
      .next (if s.initialized = 0 then finish v (moveTo l { x with a32 := s.addr } [] s.accepted) else w)) :
    andThen (.next (acceptCommand l x s)) (steps 1) =
      .next { s with result := encodeResult v, seq := .idle } :=
  (steps_of_accepted hidle l x 1).trans
    (steps_answer hquiet hidle (hcheck.trans (congrArg _ (if_pos h0))))

/-- A command that runs to its `return`: all that the run left, and the answer. -/
theorem command_finishes (hidle : s.status.busy = false) {v : Int}
    (hrun : Reaches (moveTo l { x with a32 := s.addr } [] s.accepted) (finish v u))
    (hstatus : u.status = s.accepted.status) :
    ∃ k, andThen (.next (acceptCommand l x s)) (steps k) =
      .next { u with result := encodeResult v, status := s.status, seq := .idle } := by
  obtain ⟨k, hk⟩ := hrun
  rw [finish_accepted hidle v hstatus] at hk
  exact ⟨k, (steps_of_accepted hidle l x k).trans hk⟩

/-- Settles O30: each of them fails its check, or has none, at its first step. -/
theorem inactiveCommandsHaveNoEffect : Obligations.InactiveCommandsHaveNoEffect := by
  unfold Obligations.InactiveCommandsHaveNoEffect
  intro s b n hquiet hidle h0 answers
  have unchecked (l : Label) (v : Int) (h : stepFrame ⟨l, { a32 := s.addr }⟩ []
      (moveTo l { a32 := s.addr } [] s.accepted) = .next (finish v (moveTo l { a32 := s.addr } [] s.accepted))) :=
    (steps_of_accepted hidle l {} 1).trans (steps_answer hquiet hidle h)
  have hinactive : encodeResult s.initialized.toNat = 0 := by rw [h0]; rfl
  have isactive : answers .isactive 0 :=
    (unchecked (.isActive .S1) s.initialized.toNat rfl).trans (by rw [hinactive])
  have ovfcount : answers .ovfcount (BitVec.zeroExtend 32 s.rxOverflow) :=
    (unchecked (.ovfCount .S1) s.rxOverflow.toNat rfl).trans (by rw [encodeResult_toNat])
  have zero (i : Instr) (h : andThen (exec i s) (steps 1) =
      .next { s with result := encodeResult 0, seq := .idle }) : answers i 0 := h
  have minusOne (i : Instr) (h : andThen (exec i s) (steps 1) =
      .next { s with result := encodeResult (-1), seq := .idle }) : answers i 0xFFFFFFFF := by
    rwa [encodeResult_minus_one] at h
  refine ⟨zero _ ?_, isactive, minusOne _ ?_, minusOne _ ?_, minusOne _ ?_, zero _ ?_, ovfcount, minusOne _ ?_,
    minusOne _ ?_, minusOne _ ?_, zero _ ?_⟩
  all_goals exact command_inactive hquiet hidle h0 rfl

/-! ## GETBYTE (R221) -/

/-- GETBYTE of an empty ring answers -1. -/
theorem stepGetByte_of_empty (h : s.rx.length = 0) (x : Locals) (rest : List Frame) :
    stepGetByte .S2 x rest s = .next (finish (-1) s) := by
  rw [stepGetByte, ringPop_of_empty (sel := .rx) h]
  rfl

/-- GETBYTE of a ring that holds bytes answers the oldest and removes it. -/
theorem stepGetByte_of_nonempty {b : Byte} (h : s.rx.length ≠ 0)
    (hread : Memory.read s.rx.store s.rx.current.toNat = some b) (x : Locals) (rest : List Frame) :
    stepGetByte .S2 x rest s = .next (finish b.toNat (s.setRing .rx s.rx.popped)) := by
  rw [stepGetByte, ringPop_of_nonempty (sel := .rx) h hread, drawn_some]
  rfl

/-- Settles O15: past its check GETBYTE is one POP. -/
theorem getbytePopsTheOldestByte : Obligations.GetbytePopsTheOldestByte := by
  unfold Obligations.GetbytePopsTheOldestByte
  intro s hquiet hidle
  have hquiet' := undisturbed_accepted hquiet
  let x : Locals := { a32 := s.addr }
  let u := moveTo (.getByte .S2) x [] s.accepted
  have checked (hactive : s.initialized ≠ 0) : andThen (exec .getbyte s) (steps 2) = steps 1 u :=
    (steps_of_accepted hidle (.getByte .S1) {} 2).trans
      (steps_succ_moveTo hquiet' 1 (congrArg _ (if_neg hactive)))
  refine ⟨?inactive, ?empty, ?pops⟩
  case inactive =>
    intro h0
    rw [← encodeResult_minus_one]
    exact command_inactive hquiet hidle h0 rfl
  case empty =>
    intro hactive hempty
    rw [← encodeResult_minus_one]
    exact (checked hactive).trans (steps_answer hquiet hidle (stepGetByte_of_empty (s := u) hempty x []))
  case pops =>
    intro b hactive hne hread
    rw [← encodeResult_toNat, ← popped_eq hne]
    have hpop := stepGetByte_of_nonempty (s := u) hne hread x []
    exact ((checked hactive).trans (steps_succ_moveTo hquiet' 0 hpop)).trans
      (congrArg Host.Outcome.next (finish_accepted (u := u.setRing .rx s.rx.popped) hidle _ rfl))

/-! ## FLUSHRX (R224) -/

/-- Settles O16: past its check FLUSHRX flushes the ring and clears the count, a step each. -/
theorem flushrxDiscardsTheReceivedBytes : Obligations.FlushrxDiscardsTheReceivedBytes := by
  unfold Obligations.FlushrxDiscardsTheReceivedBytes
  intro s hquiet hidle
  have hquiet' := undisturbed_accepted hquiet
  constructor
  · intro h0
    exact command_inactive (v := 0) hquiet hidle h0 rfl
  · intro hactive
    let flushed := ringFlush .rx s.accepted
    calc andThen (exec .flushrx s) (steps 3)
        = steps 3 (moveTo (.flushRx .S1) { a32 := s.addr } [] s.accepted) := steps_of_accepted hidle _ _ _
      _ = steps 2 (moveTo (.flushRx .S2) { a32 := s.addr } [] s.accepted) :=
        steps_succ_moveTo hquiet' 2 (congrArg _ (if_neg hactive))
      _ = steps 1 (moveTo (.flushRx .S3) { a32 := s.addr } [] flushed) := steps_succ_moveTo hquiet' 1 rfl
      _ = .next (finish 0 { flushed with rxOverflow := 0 }) := steps_succ_moveTo (s := flushed) hquiet' 0 rfl
      _ = _ := congrArg Host.Outcome.next (finish_accepted hidle 0 rfl)

/-! ## Runs of bytes in host memory -/

/-- A run of bytes written from address `a` up. -/
def Memory.writeRun : Memory → Nat → List Byte → Memory
  | m, _, [] => m
  | m, a, b :: bs => Memory.writeRun (Memory.write m a b) (a + 1) bs

/-- Outside the run the memory is as it was. -/
theorem read_writeRun_outside (m : Memory) {a k : Nat} (h : k < a ∨ a + bs.length ≤ k) :
    Memory.read (Memory.writeRun m a bs) k = Memory.read m k := by
  induction bs generalizing m a with
  | nil => rfl
  | cons b bs ih =>
    rw [List.length_cons] at h
    rw [Memory.writeRun, ih _ (by omega), read_write_other _ (by omega)]

/-- Inside the run each byte stands at its place. -/
theorem read_writeRun_inside (m : Memory) (a : Nat) {j : Nat} (h : j < bs.length) :
    Memory.read (Memory.writeRun m a bs) (a + j) = some bs[j] := by
  induction bs generalizing m a j with
  | nil => exact absurd h (Nat.not_lt_zero j)
  | cons b bs ih =>
    rw [Memory.writeRun]
    cases j with
    | zero =>
      exact (read_writeRun_outside _ (.inl (Nat.lt_succ_self a))).trans (read_write_same m a b)
    | succ j =>
      rw [show a + (j + 1) = a + 1 + j by omega, ih _ _ (Nat.lt_of_succ_lt_succ h), List.getElem_cons_succ]

/-- A write below the top of the address space. -/
theorem memWrite_of_lt {a : Nat} (h : a < 4294967296) (v : Byte) (s : State) :
    memWrite a v s = .next (putHost a v s) :=
  memWrite_eq_next.2 ⟨h, rfl⟩

/-- The range check (20_memory.md R74). -/
theorem rangeCrosses_eq_false (a : Word) {n : Nat} (h : a.toNat + n ≤ 4294967296) :
    rangeCrosses a n = false := by
  have hspace : Config.hostSpace = 4294967296 := rfl
  simp only [rangeCrosses, hspace, Bool.and_eq_false_iff, decide_eq_false_iff_not]
  omega

/-! ## Bytes taken from a ring -/

/-- The ring with its `n` oldest bytes removed. -/
def Ring.dropped (r : Ring) (n : Nat) : Ring :=
  { r with
    current := BitVec.ofNat 16 ((r.current.toNat + n) % r.size.toNat)
    length := BitVec.ofNat 16 (r.length.toNat - n) }

/-- No byte removed. -/
theorem dropped_zero {r : Ring} (h : r.wf = true) : r.dropped 0 = r := by
  obtain ⟨_, hcur, _, _⟩ := (ring_wf_iff r).1 h
  rw [Ring.dropped, Nat.add_zero, Nat.mod_eq_of_lt hcur, Nat.sub_zero, BitVec.ofNat_toNat, BitVec.setWidth_eq,
    BitVec.ofNat_toNat, BitVec.setWidth_eq]

/-- The oldest byte removed first. -/
theorem dropped_succ {r : Ring} (h : r.wf = true) (n : Nat) : r.dropped (n + 1) = r.popped.dropped n := by
  obtain ⟨_, hcur, _, _⟩ := (ring_wf_iff r).1 h
  have hsize : r.popped.size = r.size := rfl
  have hstore : r.popped.store = r.store := rfl
  rw [Ring.dropped, Ring.dropped, popped_current (by omega), popped_length, hsize, hstore, Nat.mod_add_mod,
    Nat.sub_sub, Nat.add_assoc, Nat.add_comm 1]

/-- Bytes that were all written are a list of bytes. -/
theorem contents_of_written {r : Ring} (h : r.written = true) : ∃ bs : List Byte, r.contents = bs.map some := by
  rw [Ring.written, List.all_eq_true] at h
  have hrange : r.contents ∈ Set.range (List.map some) := by
    rw [Set.range_list_map]
    exact fun c hc => (Option.isSome_iff_exists.1 (h c hc)).imp fun _ e => e.symm
  obtain ⟨bs, hbs⟩ := hrange
  exact ⟨bs, hbs.symm⟩

/-- The contents, read slot by slot. -/
theorem read_slot_of_contents {r : Ring} (h : r.contents = bs.map some) {j : Nat} (hj : j < bs.length) :
    Memory.read r.store (r.slot j) = some bs[j] := by
  have hget : r.contents[j]? = some (some bs[j]) := by
    rw [h, List.getElem?_map, List.getElem?_eq_getElem hj, Option.map_some]
  have hlt : j < r.length.toNat := by
    rw [← contents_length, h, List.length_map]
    exact hj
  rw [Ring.contents, List.getElem?_map, List.getElem?_range hlt, Option.map_some, Option.some_inj] at hget
  exact hget

/-! ## GETBUFFER (R222, R223) -/

/-- Host memory replaced. -/
def State.withHostMem (s : State) (m : Memory) : State := { s with hostMem := m }

/-- The fill writes a zero and goes on, inside the range. -/
theorem stepGetBuffer_fills (hmore : x.i ≠ x.a16.toNat) (hspace : x.a32.toNat + x.i < 4294967296)
    (rest : List Frame) (s : State) :
    stepGetBuffer .S3 x rest s =
      .next (moveTo (.getBuffer .S3) { x with i := x.i + 1 } rest (putHost (x.a32.toNat + x.i) 0x00 s)) := by
  unfold stepGetBuffer
  dsimp only
  rw [if_neg hmore, memWrite_of_lt hspace, andThen_next]

/-- The copy takes the oldest byte of `RX`, while there is one to copy. -/
theorem stepGetBuffer_pops {b : Byte} (hmore : x.k ≠ x.n) (hne : s.rx.length ≠ 0)
    (hread : Memory.read s.rx.store s.rx.current.toNat = some b) (rest : List Frame) :
    stepGetBuffer .S5 x rest s =
      .next (moveTo (.getBuffer .S6) { x with c := b } rest (s.setRing .rx s.rx.popped)) := by
  unfold stepGetBuffer
  dsimp only
  rw [if_neg hmore, ringPop_of_nonempty (sel := .rx) hne hread]
  rfl

/-- The byte taken goes to its place in host memory. -/
theorem stepGetBuffer_stores (hspace : x.a32.toNat + x.k < 4294967296) (rest : List Frame) (s : State) :
    stepGetBuffer .S6 x rest s =
      .next (moveTo (.getBuffer .S5) { x with k := x.k + 1 } rest (putHost (x.a32.toNat + x.k) x.c s)) := by
  unfold stepGetBuffer
  dsimp only
  rw [memWrite_of_lt hspace, andThen_next]

/-- GETBUFFER ends where it has copied its count. -/
theorem stepGetBuffer_ends (h : x.k = x.n) (rest : List Frame) (s : State) :
    stepGetBuffer .S5 x rest s = .next (finish x.n s) := by
  unfold stepGetBuffer
  dsimp only
  rw [if_pos h, h]

/-- The fill of the range with zeros, from its index `i` on. -/
theorem getBuffer_fills (hquiet : s.undisturbed = true) (n : Nat) (hn : x.i + n = x.a16.toNat)
    (hspace : x.a32.toNat + x.a16.toNat ≤ 4294967296) (rest : List Frame) :
    Reaches (moveTo (.getBuffer .S3) x rest s)
      (moveTo (.getBuffer .S4) { x with i := x.i + n } rest
        (s.withHostMem (Memory.writeRun s.hostMem (x.a32.toNat + x.i) (List.replicate n 0x00)))) := by
  induction n generalizing x s with
  | zero => exact .step hquiet (if_pos hn) (.refl _)
  | succ n ih =>
    have hput := stepGetBuffer_fills (x := x) (by omega) (by omega) rest (moveTo (.getBuffer .S3) x rest s)
    have hloop := ih (s := putHost (x.a32.toNat + x.i) 0x00 s) (x := { x with i := x.i + 1 }) hquiet
      (show x.i + 1 + n = x.a16.toNat by omega) hspace
    rw [show x.i + 1 + n = x.i + (n + 1) by omega] at hloop
    exact .step hquiet hput hloop

/-- The copy of the oldest bytes of `RX` to the range, from its index `k` on, to the end of the command. -/
theorem getBuffer_copies (hquiet : s.undisturbed = true) (hwf : s.rx.wf = true)
    (hbs : s.rx.contents.take bs.length = bs.map some) (hn : x.k + bs.length = x.n)
    (hspace : x.a32.toNat + x.n ≤ 4294967296) (rest : List Frame) :
    Reaches (moveTo (.getBuffer .S5) x rest s)
      (finish x.n ((s.withHostMem (Memory.writeRun s.hostMem (x.a32.toNat + x.k) bs)).setRing .rx
        (s.rx.dropped bs.length))) := by
  induction bs generalizing x s with
  | nil =>
    rw [List.length_nil, dropped_zero hwf]
    exact .step hquiet (stepGetBuffer_ends hn rest _) (.refl _)
  | cons b bs ih =>
    rw [List.length_cons] at hn
    have hne : s.rx.length ≠ 0 := fun h0 => by
      rw [(contents_eq_nil_iff _).2 h0, List.take_nil] at hbs
      exact List.cons_ne_nil _ _ hbs.symm
    rw [contents_eq_cons_popped hwf hne, List.length_cons, List.take_succ_cons, List.map_cons,
      List.cons.injEq] at hbs
    obtain ⟨hread, htail⟩ := hbs
    have hpop := stepGetBuffer_pops (x := x) (s := moveTo (.getBuffer .S5) x rest s) (by omega) hne hread rest
    have hput := stepGetBuffer_stores (x := { x with c := b }) (show x.a32.toNat + x.k < _ by omega) rest
      (moveTo (.getBuffer .S6) { x with c := b } rest (s.setRing .rx s.rx.popped))
    have hloop := ih (x := { x with c := b, k := x.k + 1 })
      (s := putHost (x.a32.toNat + x.k) b (s.setRing .rx s.rx.popped)) hquiet (popped_wf hwf) htail
      (show x.k + 1 + bs.length = x.n by omega) hspace
    rw [List.length_cons, dropped_succ hwf]
    exact .step hquiet hpop <| .step (s := s.setRing .rx s.rx.popped) hquiet hput hloop

/-- Settles O17: past its checks GETBUFFER fills the range with zeros, then copies into its front. -/
theorem getbufferCopiesTheReceivedBytes : Obligations.GetbufferCopiesTheReceivedBytes := by
  unfold Obligations.GetbufferCopiesTheReceivedBytes
  intro s maxLen hquiet hidle hactive hwf hwritten hspace
  obtain ⟨held, hheld⟩ := contents_of_written hwritten
  have hlength : held.length = s.rx.length.toNat := by rw [← contents_length, hheld, List.length_map]
  let n := min s.rx.length.toNat maxLen.toNat
  let bs := held.take n
  have hbs : bs.length = n := by rw [List.length_take, hlength]; omega
  have htake : s.rx.contents.take bs.length = bs.map some := by rw [hheld, hbs, List.map_take]
  let zeros := Memory.writeRun s.hostMem s.addr.toNat (List.replicate maxLen.toNat 0x00)
  let copied := Memory.writeRun zeros s.addr.toNat bs
  let x : Locals := { a16 := maxLen, a32 := s.addr }
  have hcross : ¬ rangeCrosses s.addr maxLen.toNat = true := by
    rw [rangeCrosses_eq_false s.addr hspace]; decide
  have hfill := getBuffer_fills (x := x) (s := s.accepted) hquiet maxLen.toNat (Nat.zero_add _) hspace []
  rw [Nat.zero_add, Nat.add_zero] at hfill
  let filled := s.accepted.withHostMem zeros
  let y : Locals := { x with i := maxLen.toNat, n := n, k := 0 }
  have hcopy : Reaches (moveTo (.getBuffer .S5) y [] filled)
      (finish n ((filled.withHostMem copied).setRing .rx (s.rx.dropped bs.length))) :=
    getBuffer_copies (x := y) (s := filled) hquiet hwf htake ((Nat.zero_add _).trans hbs)
      (show s.addr.toNat + n ≤ 4294967296 by omega) []
  have hrun : Reaches (moveTo (.getBuffer .S1) x [] s.accepted)
      (finish n ((filled.withHostMem copied).setRing .rx (s.rx.dropped bs.length))) :=
    .step hquiet (congrArg Host.Outcome.next (if_neg hactive)) <|
    .step hquiet (congrArg Host.Outcome.next (if_neg hcross)) <|
    hfill.trans <|
    .step (s := filled) hquiet rfl hcopy
  obtain ⟨k, hk⟩ := command_finishes (l := .getBuffer .S1) (x := { a16 := maxLen }) hidle hrun rfl
  rw [encodeResult_natCast, hbs] at hk
  refine ⟨k, _, hk, rfl, fun j hj => ?front, fun j hmin hmax => ?zero, fun a ha => ?other⟩
  case front =>
    have hj' : j < bs.length := hj.trans_eq hbs.symm
    have hheld' : j < held.length := by omega
    calc Memory.read copied (s.addr.toNat + j) = some bs[j] := read_writeRun_inside zeros s.addr.toNat hj'
      _ = some held[j] := by rw [List.getElem_take]
      _ = Memory.read s.rx.store (s.rx.slot j) := (read_slot_of_contents hheld hheld').symm
  case zero =>
    have hout : Memory.read copied (s.addr.toNat + j) = Memory.read zeros (s.addr.toNat + j) :=
      read_writeRun_outside zeros (by omega)
    have hin := read_writeRun_inside (bs := List.replicate maxLen.toNat 0x00) s.hostMem s.addr.toNat
      (hmax.trans_eq List.length_replicate.symm)
    rw [List.getElem_replicate] at hin
    exact hout.trans hin
  case other =>
    have hcopied : Memory.read copied a = Memory.read zeros a := read_writeRun_outside zeros (by omega)
    exact hcopied.trans (read_writeRun_outside s.hostMem (by rwa [List.length_replicate]))

end Sys2Proof.Machine

/-! The commands that send one frame or queue one byte: PUT_ONE, PUTBYTE and TRANSMITNOW run to their end
(44_transport_api.md R226, R227, R230). -/

namespace Sys2Proof.Machine

variable {x : Locals} {s t u : State} {b : Byte} {bs : List Byte} {f : Frame} {rest fs : List Frame}

/-! ## `TX` stays sound (10_state.md R23) -/

/-- A ring replaced by one that is sound where it was. -/
theorem tx_wf_setRing {sel : RingSel} {r : Ring} (h : s.tx.wf = true)
    (hr : (s.ring sel).wf = true → r.wf = true) : (s.setRing sel r).tx.wf = true := by
  cases sel with
  | rx => exact h
  | tx => exact hr h

/-- Every ring primitive keeps `TX` sound. -/
theorem RingOp.tx_wf (op : RingOp s t) (h : s.tx.wf = true) : t.tx.wf = true := by
  cases op with
  | reset sel => exact tx_wf_setRing h reset_wf
  | flush sel => exact tx_wf_setRing h flush_wf
  | pop sel =>
    rcases ringPop_cases sel s with ⟨_, e⟩ | ⟨_, e⟩ <;> rw [e]
    · exact h
    · exact tx_wf_setRing (by simpa using h) fun hr => popped_wf (by cases sel <;> simpa using hr)
  | push sel b =>
    rcases ringPush_cases sel b s with ⟨hroom, e⟩ | ⟨_, e⟩ <;> rw [e]
    · exact tx_wf_setRing h fun hr => pushed_wf hr b hroom
    · exact h

/-- A step of a routine keeps `TX` sound: what it does to a ring is a ring primitive. -/
theorem Stepped.tx_wf (st : Stepped f rest s t) (h : s.tx.wf = true) : t.tx.wf = true := by
  obtain ⟨u, e, _, _, _, _, _, htx, _⟩ := st.effect
  rw [htx]
  cases e with
  | ring _ op => exact op.tx_wf h
  | _ => simpa using h

/-- A handler leaves `TX`. -/
theorem Handled.tx_eq {v : Word} (h : Handled s v t) : t.tx = s.tx := by
  cases h <;> simp [takeEvent, handlerReturn, onTransmitComplete]

/-- An instruction keeps `TX` sound. -/
theorem Executed.tx_wf (e : Executed s t) (h : s.tx.wf = true) : t.tx.wf = true := by
  cases e with
  | ring op => simpa using op.tx_wf h
  | event he => rwa [he.tx_eq]
  | _ => simpa using h

/-- Every turn keeps `TX` sound. -/
theorem TurnTaken.tx_wf {a : Turn} (turn : TurnTaken s a t) (h : s.tx.wf = true) : t.tx.wf = true := by
  cases turn with
  | sequencer _ hseq =>
    rcases seqStep_cases hseq with ⟨_, rfl⟩ | ⟨_, _, _, st⟩
    · exact h
    · exact st.tx_wf h
  | handler _ he => rwa [he.tx_eq]
  | host hres =>
    cases hres with
    | command _ | memory _ _ => simpa using h
    | _ => exact h
  | chip c => simpa using h
  | air a => simpa using h
  | issue e => exact e.tx_wf h

/-- Every run keeps `TX` sound. -/
theorem Reaches.tx_wf (hrun : Reaches s t) (h : s.tx.wf = true) : t.tx.wf = true := by
  obtain ⟨k, hk⟩ := hrun
  induction k generalizing s with
  | zero =>
    obtain rfl := Host.Outcome.next.inj hk
    exact h
  | succ k ih =>
    obtain ⟨u, hstep, hsteps⟩ := andThen_eq_next.1 ((steps_succ k s).symm.trans hk)
    obtain ⟨ts, turn⟩ := step_cases hstep
    exact ih (turn.tx_wf (s := { s with agenda := ts }) h) hsteps

/-! ## A call of LOAD_AND_SEND on the reference chip -/

/-- Nobody disturbs the sequencer, the reference chip is `LISTENING`, and `TX` is sound. -/
structure State.CanSend (s : State) : Prop where
  quiet : s.undisturbed = true
  ref : s.chipModel = .ref
  listening : chipState s = stListening
  txWf : s.tx.wf = true

/-- A caller of LOAD_AND_SEND goes on after one frame of the oldest bytes of `TX` was sent. -/
theorem loadAndSend_sends (hs : s.CanSend) (hbs : s.tx.contents.take (s.maxPayload - 1) = bs.map some)
    (f : Frame) (fs : List Frame) :
    ∃ r c, Reaches (moveTo (.loadAndSend .S1) {} (f :: fs) s)
        (moveTo f.label f.loc fs (s.sent r c (s.txLog ++ [stagedRecord bs]))) ∧
      r.contents = s.tx.contents.drop bs.length ∧ r.size = s.tx.size ∧
      (s.sent r c (s.txLog ++ [stagedRecord bs])).CanSend := by
  obtain ⟨r, c, log, hrun, hr, hsize, _, href, _⟩ :=
    loadAndSend_runs hs.quiet hs.txWf hbs (.inl ⟨hs.ref, .inl hs.listening⟩) {} (f :: fs)
  obtain ⟨rfl, hlistening, _⟩ := href hs.ref
  have hwf : r.wf = true := hrun.tx_wf hs.txWf
  exact ⟨r, c, hrun, hr, hsize, undisturbed_sent hs.quiet hsize c _, hs.ref, hlistening, hwf⟩

/-- The record of a frame the chip can send (43_frame_assembler.md R206). -/
theorem stagedRecord_of_fits (h : bs.length + 2 ≤ 127) :
    stagedRecord bs = { len := BitVec.ofNat 8 (bs.length + 2), payload := some bs } := by
  rw [stagedRecord, Config.frameMax, if_pos h]

/-- Settles O21: past its check TRANSMITNOW is one call of LOAD_AND_SEND. -/
theorem transmitnowSendsOneFrame : Obligations.TransmitnowSendsOneFrame := by
  unfold Obligations.TransmitnowSendsOneFrame
  intro s hquiet hidle
  constructor
  · intro h0
    exact command_inactive (v := 0) hquiet hidle h0 rfl
  · intro bs hactive href hlistening hwf hbs hfits
    let x : Locals := { a32 := s.addr }
    obtain ⟨r, c, hsend, hr, _, hsent⟩ :=
      loadAndSend_sends (s := s.accepted) ⟨hquiet, href, hlistening, hwf⟩ hbs ⟨.transmitNow .S3, x⟩ []
    have hrun : Reaches (moveTo (.transmitNow .S1) x [] s.accepted)
        (finish 0 (s.accepted.sent r c (s.txLog ++ [stagedRecord bs]))) :=
      .step hquiet (congrArg Host.Outcome.next (if_neg hactive)) <|
      .step hquiet rfl <|
      hsend.trans <|
      .step hsent.quiet rfl (.refl _)
    obtain ⟨k, hk⟩ := command_finishes (l := .transmitNow .S1) (x := {}) hidle hrun rfl
    rw [stagedRecord_of_fits hfits] at hk
    exact ⟨k, _, hk, rfl, hr, hsent.listening⟩

/-! ## PUT_ONE (R226) -/

/-- PUT_ONE of a byte that fits `TX` and makes no auto-flush fall due returns it, queued. -/
theorem stepPutOne_queues (hroom : s.tx.length.toNat < s.tx.size.toNat)
    (hdue : s.tx.length.toNat + 1 < s.autoflush) (x : Locals) (f : Frame) (fs : List Frame) :
    stepPutOne .S1 x (f :: fs) s =
      .next (moveTo f.label { f.loc with r := .ok x.b } fs (s.setRing .tx (s.tx.pushed x.b))) := by
  have hlen : (s.setRing .tx (s.tx.pushed x.b)).tx.length.toNat < s.autoflush := by
    rwa [setRing_tx_tx, pushed_length x.b hroom]
  unfold stepPutOne
  dsimp only
  rw [ringPush_of_room (sel := .tx) hroom]
  exact congrArg Host.Outcome.next (if_pos hlen)

/-- PUT_ONE of a byte that does not fit `TX`, while no auto-flush is due, returns `FULL`. -/
theorem stepPutOne_drops (hfull : s.tx.size.toNat ≤ s.tx.length.toNat)
    (hdue : s.tx.length.toNat < s.autoflush) (x : Locals) (f : Frame) (fs : List Frame) :
    stepPutOne .S1 x (f :: fs) s = .next (moveTo f.label { f.loc with r := .full } fs s) := by
  unfold stepPutOne
  dsimp only
  rw [ringPush_of_full (sel := .tx) hfull]
  exact congrArg Host.Outcome.next (if_pos hdue)

/-- PUT_ONE of a byte that brings `TX` to the threshold goes on to send. -/
theorem stepPutOne_reaches_threshold (hroom : s.tx.length.toNat < s.tx.size.toNat)
    (hdue : s.autoflush ≤ s.tx.length.toNat + 1) (x : Locals) (rest : List Frame) :
    stepPutOne .S1 x rest s =
      .next (moveTo (.putOne .S2) { x with r := .ok x.b } rest (s.setRing .tx (s.tx.pushed x.b))) := by
  have hlen : ¬ (s.setRing .tx (s.tx.pushed x.b)).tx.length.toNat < s.autoflush := by
    rw [setRing_tx_tx, pushed_length x.b hroom]
    omega
  unfold stepPutOne
  dsimp only
  rw [ringPush_of_room (sel := .tx) hroom]
  exact congrArg Host.Outcome.next (if_neg hlen)

/-- On the reference chip the byte that brings `TX` to the threshold is queued, a frame of the oldest bytes
is sent, and the byte is returned. -/
theorem putOne_flushes (hs : s.CanSend) (hroom : s.tx.length.toNat < s.tx.size.toNat)
    (hdue : s.autoflush ≤ s.tx.length.toNat + 1)
    (hbs : (s.tx.contents ++ [some b]).take (s.maxPayload - 1) = bs.map some) (f : Frame) (fs : List Frame) :
    ∃ r c, Reaches (moveTo (.putOne .S1) { b := b } (f :: fs) s)
        (moveTo f.label { f.loc with r := .ok b } fs (s.sent r c (s.txLog ++ [stagedRecord bs]))) ∧
      r.contents = (s.tx.contents ++ [some b]).drop bs.length ∧ r.size = s.tx.size ∧
      (s.sent r c (s.txLog ++ [stagedRecord bs])).CanSend := by
  let queued := s.setRing .tx (s.tx.pushed b)
  have hqueued : queued.CanSend := ⟨hs.quiet, hs.ref, hs.listening, pushed_wf hs.txWf b hroom⟩
  have hcontents : queued.tx.contents = s.tx.contents ++ [some b] := contents_pushed b hroom
  rw [← hcontents] at hbs ⊢
  let x : Locals := { b := b, r := .ok b }
  obtain ⟨r, c, hsend, hr, hsize, hsent⟩ := loadAndSend_sends hqueued hbs ⟨.putOne .S3, x⟩ (f :: fs)
  have hpush := stepPutOne_reaches_threshold (s := moveTo (.putOne .S1) { b := b } (f :: fs) s) hroom hdue
    { b := b } (f :: fs)
  refine ⟨r, c, ?_, hr, hsize, hsent⟩
  exact .step hs.quiet hpush <|
    .step (s := queued) hqueued.quiet rfl <|
    hsend.trans <|
    .step hsent.quiet rfl (.refl _)

/-! ## PUTBYTE (R227) -/

/-- The last step of PUTBYTE after PUT_ONE queued the byte: it is returned. -/
theorem stepPutByte_returns_queued (h : x.r = .ok b) (rest : List Frame) (s : State) :
    stepPutByte .S3 x rest s = .next (finish x.a8.toNat s) := by
  unfold stepPutByte
  dsimp only
  rw [h, if_neg nofun]

/-- The last step of PUTBYTE after PUT_ONE found `TX` full. -/
theorem stepPutByte_returns_full (h : x.r = .full) (rest : List Frame) (s : State) :
    stepPutByte .S3 x rest s = .next (finish (-1) s) := by
  unfold stepPutByte
  dsimp only
  rw [if_pos h]

/-- Settles O19: past its check PUTBYTE is one call of PUT_ONE, which returns at its first step. -/
theorem putbyteQueuesItsByte : Obligations.PutbyteQueuesItsByte := by
  unfold Obligations.PutbyteQueuesItsByte
  intro s b hquiet hidle hactive
  have hquiet' := undisturbed_accepted hquiet
  let x : Locals := { a8 := b, a32 := s.addr }
  let called := moveTo (.putOne .S1) { b := b } [⟨.putByte .S3, x⟩] s.accepted
  have hcalled : andThen (exec (.putbyte b) s) (steps 4) = steps 2 called := by
    calc andThen (exec (.putbyte b) s) (steps 4)
        = steps 4 (moveTo (.putByte .S1) x [] s.accepted) := steps_of_accepted hidle (.putByte .S1) { a8 := b } 4
      _ = steps 3 (moveTo (.putByte .S2) x [] s.accepted) :=
        steps_succ_moveTo hquiet' 3 (congrArg _ (if_neg hactive))
      _ = steps 2 called := steps_succ_moveTo hquiet' 2 rfl
  rw [hcalled]
  constructor
  · intro hroom hdue
    let queued := s.accepted.setRing .tx (s.tx.pushed b)
    rw [← encodeResult_toNat, ← pushed_eq]
    calc steps 2 called
        = steps 1 (moveTo (.putByte .S3) { x with r := .ok b } [] queued) :=
        steps_succ_moveTo hquiet' 1 (stepPutOne_queues (s := called) hroom hdue _ _ _)
      _ = .next (finish b.toNat queued) :=
        steps_succ_moveTo (s := queued) hquiet' 0 (stepPutByte_returns_queued rfl [] _)
      _ = _ := congrArg Host.Outcome.next (finish_accepted (u := queued) hidle _ rfl)
  · intro hfull hdue
    rw [← encodeResult_minus_one]
    calc steps 2 called
        = steps 1 (moveTo (.putByte .S3) { x with r := .full } [] s.accepted) :=
        steps_succ_moveTo hquiet' 1 (stepPutOne_drops (s := called) hfull hdue _ _ _)
      _ = _ := steps_answer hquiet hidle (stepPutByte_returns_full rfl [] _)

/-- Settles O22: the byte reaches the threshold in PUT_ONE, which sends before it returns. -/
theorem putbyteAtTheThresholdSendsAFrame : Obligations.PutbyteAtTheThresholdSendsAFrame := by
  unfold Obligations.PutbyteAtTheThresholdSendsAFrame
  intro s b bs hquiet hidle hactive href hlistening hwf hroom hdue hbs
  let x : Locals := { a8 := b, a32 := s.addr }
  obtain ⟨r, c, hflush, hr, _, hsent⟩ := putOne_flushes (s := s.accepted) ⟨hquiet, href, hlistening, hwf⟩
    hroom hdue hbs ⟨.putByte .S3, x⟩ []
  have hrun : Reaches (moveTo (.putByte .S1) x [] s.accepted)
      (finish b.toNat (s.accepted.sent r c (s.txLog ++ [stagedRecord bs]))) :=
    .step hquiet (congrArg Host.Outcome.next (if_neg hactive)) <|
    .step hquiet rfl <|
    hflush.trans <|
    .step hsent.quiet (stepPutByte_returns_queued rfl [] _) (.refl _)
  obtain ⟨k, hk⟩ := command_finishes (l := .putByte .S1) (x := { a8 := b }) hidle hrun rfl
  rw [encodeResult_toNat] at hk
  refine ⟨k, _, hk, rfl, hr, hsent.listening, fun hfits => ?_⟩
  have hlength : (s.tx.contents ++ [some b]).length = s.tx.length.toNat + 1 := by
    rw [List.length_append, contents_length, List.length_singleton]
  have hall : bs.map some = s.tx.contents ++ [some b] :=
    hbs.symm.trans (List.take_of_length_le (hlength.trans_le hfits))
  have hlast : (bs.map some).getLast? = some (some b) := by rw [hall, List.getLast?_concat]
  have hcount : (s.tx.contents ++ [some b]).length = bs.length := by rw [← hall, List.length_map]
  refine ⟨hall, ?_, hr.trans (List.drop_of_length_le hcount.le)⟩
  rw [List.getLast?_map] at hlast
  exact Option.map_injective (Option.some_injective _) hlast

end Sys2Proof.Machine

/-! The commands that queue many bytes: PUTBUFFER and PUTSTRING run to their end (44_transport_api.md R228,
R229), each a loop of PUT_ONE over a range of host memory. -/

namespace Sys2Proof.Machine

variable {x : Locals} {s t u : State} {b : Byte} {bs held held' todo : List Byte} {sent sent' : List (List Byte)}
  {rest : List Frame}

/-! ## Calls of PUT_ONE, one after another -/

/-- PUT_ONE of a byte that fits `TX`, while no auto-flush falls due: its caller goes on, the byte queued. -/
theorem putOne_queues (hquiet : s.undisturbed = true) (hroom : s.tx.length.toNat < s.tx.size.toNat)
    (hundue : s.tx.length.toNat + 1 < s.autoflush) (b : Byte) (f : Frame) (fs : List Frame) :
    Reaches (moveTo (.putOne .S1) { b := b } (f :: fs) s)
      (moveTo f.label { f.loc with r := .ok b } fs (s.setRing .tx (s.tx.pushed b))) :=
  have hput := stepPutOne_queues (s := moveTo (.putOne .S1) { b := b } (f :: fs) s) hroom hundue { b := b } f fs
  .step hquiet hput (.refl _)

/-- PUT_ONE of a byte that does not fit `TX`, while no auto-flush is due: its caller goes on, the byte lost. -/
theorem putOne_drops (hquiet : s.undisturbed = true) (hfull : s.tx.size.toNat ≤ s.tx.length.toNat)
    (hundue : s.tx.length.toNat < s.autoflush) (b : Byte) (f : Frame) (fs : List Frame) :
    Reaches (moveTo (.putOne .S1) { b := b } (f :: fs) s) (moveTo f.label { f.loc with r := .full } fs s) :=
  have hput := stepPutOne_drops (s := moveTo (.putOne .S1) { b := b } (f :: fs) s) hfull hundue { b := b } f fs
  .step hquiet hput (.refl _)

/-- `P`, of the bytes still to be put and the state, is kept by a call of PUT_ONE with the first of them,
whoever calls; while it holds nobody disturbs the sequencer, and host memory is `m`. -/
structure PutInvariant (m : Memory) (P : List Byte → State → Prop) : Prop where
  quiet : ∀ {todo s}, P todo s → s.undisturbed = true
  host : ∀ {todo s}, P todo s → s.hostMem = m
  put : ∀ {b todo s}, P (b :: todo) s → ∀ f fs, ∃ r t,
    Reaches (moveTo (.putOne .S1) { b := b } (f :: fs) s) (moveTo f.label { f.loc with r := r } fs t) ∧ P todo t

/-- From `s` on bytes were put while no auto-flush fell due: `TX` and the bytes `todo`, which are still to
come, are together the list `all`, as far as it fits. -/
structure Queueing (s : State) (all : List (Option Byte)) (todo : List Byte) (t : State) : Prop where
  eq : ∃ r, t = s.setRing .tx r
  size : t.tx.size = s.tx.size
  quiet : t.undisturbed = true
  wf : t.tx.wf = true
  undue : min (t.tx.length.toNat + todo.length) s.tx.size.toNat < s.autoflush
  order : (t.tx.contents ++ todo.map some).take s.tx.size.toNat = all.take s.tx.size.toNat

/-- A byte that fits `TX` joins those that it holds. -/
theorem Queueing.queues {all : List (Option Byte)} (h : Queueing s all (b :: todo) t)
    (hroom : t.tx.length.toNat < t.tx.size.toNat) : Queueing s all todo (t.setRing .tx (t.tx.pushed b)) where
  eq := by
    obtain ⟨r, rfl⟩ := h.eq
    exact ⟨_, rfl⟩
  size := h.size
  quiet := h.quiet
  wf := pushed_wf h.wf b hroom
  undue := by
    have hundue := h.undue
    rw [List.length_cons, Nat.add_comm todo.length, ← Nat.add_assoc] at hundue
    rwa [setRing_tx_tx, pushed_length b hroom]
  order := by
    rw [setRing_tx_tx, contents_pushed b hroom, List.append_assoc]
    exact h.order

/-- A byte that does not fit `TX` is none of those that fit. -/
theorem Queueing.drops {all : List (Option Byte)} (h : Queueing s all (b :: todo) t)
    (hfull : t.tx.size.toNat ≤ t.tx.length.toNat) : Queueing s all todo t where
  eq := h.eq
  size := h.size
  quiet := h.quiet
  wf := h.wf
  undue := lt_of_le_of_lt (min_le_min_right _ (by rw [List.length_cons]; omega)) h.undue
  order := by
    have hfits : s.tx.size.toNat ≤ t.tx.contents.length := by rwa [contents_length, ← h.size]
    rw [← h.order, List.take_append_of_le_length hfits, List.take_append_of_le_length hfits]

/-- Bytes are queued as far as they fit. -/
theorem putInvariant_queueing (s : State) (all : List (Option Byte)) :
    PutInvariant s.hostMem (Queueing s all) where
  quiet h := h.quiet
  host h := by
    obtain ⟨r, rfl⟩ := h.eq
    rfl
  put {b todo t} h f fs := by
    have hundue := h.undue
    have hflush : t.autoflush = s.autoflush := by
      obtain ⟨r, rfl⟩ := h.eq
      rfl
    rw [List.length_cons, ← h.size, ← hflush] at hundue
    have hfits : t.tx.length.toNat ≤ t.tx.size.toNat := ((ring_wf_iff _).1 h.wf).1
    by_cases hroom : t.tx.length.toNat < t.tx.size.toNat
    · exact ⟨.ok b, _, putOne_queues h.quiet hroom (by omega) b f fs, h.queues hroom⟩
    · have hfull := Nat.le_of_not_lt hroom
      exact ⟨.full, t, putOne_drops h.quiet hfull (by omega) b f fs, h.drops hfull⟩

/-- Before the first byte. -/
theorem Queueing.start (hquiet : s.undisturbed = true) (hwf : s.tx.wf = true)
    (hundue : min (s.tx.length.toNat + bs.length) s.tx.size.toNat < s.autoflush) :
    Queueing s (s.tx.contents ++ bs.map some) bs s where
  eq := ⟨s.tx, rfl⟩
  size := rfl
  quiet := hquiet
  wf := hwf
  undue := hundue
  order := rfl

/-- After the last byte `TX` holds the list as far as it fits. -/
theorem Queueing.contents_eq {all : List (Option Byte)} (h : Queueing s all [] t) :
    t.tx.contents = all.take s.tx.size.toNat := by
  have hfits : t.tx.contents.length ≤ s.tx.size.toNat := by
    rw [contents_length, ← h.size]
    exact ((ring_wf_iff _).1 h.wf).1
  rw [← h.order, List.map_nil, List.append_nil, List.take_of_length_le hfits]

/-- Where the reference chip was `LISTENING`, a frame can be sent. -/
theorem Queueing.canSend {all : List (Option Byte)} (h : Queueing s all todo t) (hs : s.CanSend) : t.CanSend := by
  obtain ⟨r, rfl⟩ := h.eq
  exact ⟨h.quiet, hs.ref, hs.listening, h.wf⟩

/-! ## Calls of PUT_ONE with auto-flush -/

/-- From `s` on the frames `sent` were sent, which left the bytes `held` in `TX`, fewer than the threshold. -/
structure SentOn (sent : List (List Byte)) (held : List Byte) (s t : State) : Prop where
  eq : ∃ r c, t = s.sent r c (s.txLog ++ sent.map stagedRecord)
  size : t.tx.size = s.tx.size
  contents : t.tx.contents = held.map some
  below : t.tx.length.toNat < s.autoflush
  frames : ∀ p ∈ sent, 1 ≤ p.length ∧ p.length ≤ s.maxPayload - 1
  canSend : t.CanSend

/-- No frame sent yet. -/
theorem SentOn.refl (hs : s.CanSend) (hheld : s.tx.contents = held.map some)
    (hbelow : s.tx.length.toNat < s.autoflush) : SentOn [] held s s where
  eq := ⟨s.tx, s.chip, by rw [List.map_nil, List.append_nil]; rfl⟩
  size := rfl
  contents := hheld
  below := hbelow
  frames := nofun
  canSend := hs

/-- More frames sent after some. -/
theorem SentOn.trans (h : SentOn sent held s t) (h' : SentOn sent' held' t u) :
    SentOn (sent ++ sent') held' s u := by
  obtain ⟨r, c, rfl⟩ := h.eq
  obtain ⟨r', c', rfl⟩ := h'.eq
  refine ⟨⟨r', c', ?_⟩, h'.size.trans h.size, h'.contents, h'.below,
    List.forall_mem_append.2 ⟨h.frames, h'.frames⟩, h'.canSend⟩
  rw [List.map_append, ← List.append_assoc]
  rfl

/-- A byte below the threshold joins those that `TX` holds. -/
theorem SentOn.queued (hs : s.CanSend) (hroom : s.tx.length.toNat < s.tx.size.toNat)
    (hundue : s.tx.length.toNat + 1 < s.autoflush) (hheld : s.tx.contents = held.map some) (b : Byte) :
    SentOn [] (held ++ [b]) s (s.setRing .tx (s.tx.pushed b)) where
  eq := ⟨s.tx.pushed b, s.chip, by rw [List.map_nil, List.append_nil]; rfl⟩
  size := rfl
  contents := by rw [setRing_tx_tx, contents_pushed b hroom, hheld, List.map_append, List.map_singleton]
  below := by rwa [setRing_tx_tx, pushed_length b hroom]
  frames := nofun
  canSend := ⟨hs.quiet, hs.ref, hs.listening, pushed_wf hs.txWf b hroom⟩

/-- The bytes taken for a frame, then those left behind it. -/
theorem take_append_drop_length (n : Nat) (bs : List Byte) : bs.take n ++ bs.drop (bs.take n).length = bs := by
  rw [List.length_take]
  rcases le_total n bs.length with h | h
  · rw [min_eq_left h, List.take_append_drop]
  · rw [min_eq_right h, List.take_of_length_le h, List.drop_length, List.append_nil]

/-- The byte that reaches the threshold is sent in a frame, or kept, behind those that `TX` held. -/
theorem putOne_sends_at_threshold (hs : s.CanSend) (hroom : s.tx.length.toNat < s.tx.size.toNat)
    (hdue : s.tx.length.toNat + 1 = s.autoflush) (hheld : s.tx.contents = held.map some) (b : Byte)
    (f : Frame) (fs : List Frame) :
    ∃ t p held', Reaches (moveTo (.putOne .S1) { b := b } (f :: fs) s)
        (moveTo f.label { f.loc with r := .ok b } fs t) ∧
      SentOn [p] held' s t ∧ p ++ held' = held ++ [b] := by
  obtain ⟨_, _, hpayload, _, _, _⟩ := (state_legal_iff s).1 ((undisturbed_iff s).1 hs.quiet).1
  let p := (held ++ [b]).take (s.maxPayload - 1)
  have hcontents : s.tx.contents ++ [some b] = (held ++ [b]).map some := by
    rw [hheld, List.map_append, List.map_singleton]
  have hlength : (held ++ [b]).length = s.tx.length.toNat + 1 := by
    rw [List.length_append, List.length_singleton, ← contents_length, hheld, List.length_map]
  have hp : 1 ≤ p.length ∧ p.length ≤ s.maxPayload - 1 := by
    rw [List.length_take, hlength]
    omega
  obtain ⟨r, c, hrun, hr, hsize, hsent⟩ :=
    putOne_flushes (bs := p) hs hroom hdue.ge (by rw [hcontents, List.map_take]) f fs
  rw [hcontents, ← List.map_drop] at hr
  refine ⟨_, p, (held ++ [b]).drop p.length, hrun, ⟨⟨r, c, rfl⟩, hsize, hr, ?below, ?frames, hsent⟩,
    take_append_drop_length _ _⟩
  case below =>
    have hkept : r.length.toNat = s.tx.length.toNat + 1 - p.length := by
      rw [← contents_length, hr, List.length_map, List.length_drop, hlength]
    show r.length.toNat < s.autoflush
    omega
  case frames =>
    intro q hq
    rwa [List.mem_singleton.1 hq]

/-- From `s` on bytes were put and frames sent: the frames, what `TX` holds, and the bytes `todo`, which are
still to come, are together the list `all`. -/
def Sending (s : State) (all todo : List Byte) (t : State) : Prop :=
  ∃ sent held, SentOn sent held s t ∧ sent.flatten ++ held ++ todo = all

/-- On the reference chip, where auto-flush keeps `TX` from filling, no byte is lost and none overtaken. -/
theorem putInvariant_sending (hcap : s.autoflush ≤ s.tx.size.toNat) (all : List Byte) :
    PutInvariant s.hostMem (Sending s all) where
  quiet := fun ⟨_, _, h, _⟩ => h.canSend.quiet
  host := fun ⟨_, _, h, _⟩ => by
    obtain ⟨r, c, rfl⟩ := h.eq
    rfl
  put := by
    rintro b todo t ⟨sent, held, h, hall⟩ f fs
    have hflush : t.autoflush = s.autoflush := by
      obtain ⟨r, c, rfl⟩ := h.eq
      rfl
    have hbelow := h.below
    rw [← hflush] at hcap hbelow
    rw [← h.size] at hcap
    have hroom : t.tx.length.toNat < t.tx.size.toNat := by omega
    rw [List.append_cons, List.append_assoc sent.flatten] at hall
    by_cases hundue : t.tx.length.toNat + 1 < t.autoflush
    · have hqueued := h.trans (.queued h.canSend hroom hundue h.contents b)
      rw [List.append_nil] at hqueued
      exact ⟨.ok b, _, putOne_queues h.canSend.quiet hroom hundue b f fs, sent, _, hqueued, hall⟩
    · obtain ⟨u, p, held', hrun, hsent, hp⟩ :=
        putOne_sends_at_threshold h.canSend hroom (by omega) h.contents b f fs
      refine ⟨.ok b, u, hrun, sent ++ [p], held', h.trans hsent, ?_⟩
      rwa [List.flatten_append, List.flatten_singleton, List.append_assoc sent.flatten, hp]

/-! ## The loops over host memory -/

/-- The bytes of host memory in the range of `n` bytes at `a`. -/
def hostBytes (s : State) (a n : Nat) : List Byte := (List.range n).map fun j => hostByteAt s (a + j)

/-- A range has as many bytes as its length says. -/
@[simp] theorem length_hostBytes (s : State) (a n : Nat) : (hostBytes s a n).length = n := by
  rw [hostBytes, List.length_map, List.length_range]

/-- The two loops over a range of host memory: that of PUTBUFFER, and the second of PUTSTRING. -/
inductive ByteLoop where
  | buffer
  | string

/-- The step at the head of the loop, which ends it or reads the next byte. -/
def ByteLoop.head : ByteLoop → Label
  | .buffer => .putBuffer .S3
  | .string => .putString .S4

/-- The step that calls PUT_ONE. -/
def ByteLoop.call : ByteLoop → Label
  | .buffer => .putBuffer .S4
  | .string => .putString .S5

/-- The step after the call. -/
def ByteLoop.next : ByteLoop → Label
  | .buffer => .putBuffer .S5
  | .string => .putString .S6

/-- How many bytes the loop puts. -/
def ByteLoop.count : ByteLoop → Locals → Nat
  | .buffer, x => x.a16.toNat
  | .string, x => x.n

/-- The head of a loop that is not at its end reads the next byte. -/
theorem stepFrame_head (L : ByteLoop) (hmore : x.i ≠ L.count x) (hspace : x.a32.toNat + x.i < 4294967296)
    (rest : List Frame) (s : State) :
    stepFrame ⟨L.head, x⟩ rest s =
      .next (moveTo L.call { x with c := hostByteAt s (x.a32.toNat + x.i) } rest s) := by
  cases L with
  | buffer => exact (if_neg hmore).trans (memRead_eq_next.2 ⟨hspace, rfl⟩)
  | string => exact (if_neg hmore).trans (memRead_eq_next.2 ⟨hspace, rfl⟩)

/-- The call of PUT_ONE with the byte read. -/
theorem stepFrame_call (L : ByteLoop) (x : Locals) (rest : List Frame) (s : State) :
    stepFrame ⟨L.call, x⟩ rest (moveTo L.call x rest s) =
      .next (moveTo (.putOne .S1) { b := x.c } (⟨L.next, x⟩ :: rest) s) := by
  cases L <;> rfl

/-- After the call the loop goes on with the next byte. -/
theorem stepFrame_next (L : ByteLoop) (x : Locals) (rest : List Frame) (s : State) :
    stepFrame ⟨L.next, x⟩ rest (moveTo L.next x rest s) =
      .next (moveTo L.head { x with i := x.i + 1 } rest s) := by
  cases L <;> rfl

/-- A loop runs to its end, and keeps what PUT_ONE keeps. -/
theorem byteLoop_runs {m : Memory} {P : List Byte → State → Prop} (inv : PutInvariant m P) (L : ByteLoop)
    (hP : P bs s) (hcount : x.i + bs.length = L.count x) (hspace : x.a32.toNat + L.count x ≤ 4294967296)
    (hbytes : ∀ j, (h : j < bs.length) → hostByteAt s (x.a32.toNat + x.i + j) = bs[j]) (rest : List Frame) :
    ∃ y t, Reaches (moveTo L.head x rest s) (moveTo L.head y rest t) ∧ P [] t ∧ y.i = L.count y ∧
      y.a16 = x.a16 ∧ y.n = x.n := by
  induction bs generalizing x s with
  | nil => exact ⟨x, s, .refl _, hP, hcount, rfl, rfl⟩
  | cons b bs ih =>
    rw [List.length_cons] at hcount
    have hread : hostByteAt s (x.a32.toNat + x.i) = b := hbytes 0 (Nat.succ_pos _)
    have hhead := stepFrame_head L (x := x) (by omega) (by omega) rest (moveTo L.head x rest s)
    rw [show hostByteAt (moveTo L.head x rest s) (x.a32.toNat + x.i) = b from hread] at hhead
    let z : Locals := { x with c := b }
    obtain ⟨r, t, hput, hPt⟩ := inv.put hP ⟨L.next, z⟩ rest
    have hhost : t.hostMem = s.hostMem := (inv.host hPt).trans (inv.host hP).symm
    let w : Locals := { z with r := r, i := x.i + 1 }
    have hw : L.count w = L.count x := by cases L <;> rfl
    rw [← hw] at hcount hspace
    have hbytes' (j : Nat) (hj : j < bs.length) : hostByteAt t (w.a32.toNat + w.i + j) = bs[j] := by
      have hbyte := hbytes (j + 1) (Nat.succ_lt_succ hj)
      rw [List.getElem_cons_succ, ← Nat.add_assoc, Nat.add_right_comm] at hbyte
      rw [hostByteAt, hhost]
      exact hbyte
    obtain ⟨y, u, hloop, hPu, hy⟩ :=
      ih (x := w) hPt (show x.i + 1 + bs.length = L.count w by omega) hspace hbytes'
    have hquiet := inv.quiet hP
    have hquiet' := inv.quiet hPt
    exact ⟨y, u, .step hquiet hhead <| .step hquiet (stepFrame_call L z rest s) <| hput.trans <|
      .step hquiet' (stepFrame_next L { z with r := r } rest t) hloop, hPu, hy⟩

/-! ## PUTBUFFER (R228) -/

/-- Past its checks PUTBUFFER is the loop. -/
theorem putBuffer_runs {m : Memory} {P : List Byte → State → Prop} (inv : PutInvariant m P)
    (hactive : s.initialized ≠ 0) {len : Half} (hspace : s.addr.toNat + len.toNat ≤ 4294967296)
    (hP : P (hostBytes s s.addr.toNat len.toNat) s) :
    ∃ t, Reaches (moveTo (.putBuffer .S1) { a16 := len, a32 := s.addr } [] s) (finish len.toNat t) ∧
      P [] t := by
  let x : Locals := { a16 := len, a32 := s.addr }
  have hquiet := inv.quiet hP
  have hcross : ¬ rangeCrosses s.addr len.toNat = true := by
    rw [rangeCrosses_eq_false s.addr hspace]
    decide
  obtain ⟨y, t, hloop, hPt, hi, hlen, _⟩ := byteLoop_runs inv .buffer (x := x) hP
    ((Nat.zero_add _).trans (length_hostBytes _ _ _)) hspace (fun j hj => by simp [hostBytes, x]) []
  have hend : stepPutBuffer .S3 y [] (moveTo (.putBuffer .S3) y [] t) =
      .next (finish y.a16.toNat (moveTo (.putBuffer .S3) y [] t)) := if_pos hi
  rw [hlen] at hend
  exact ⟨t, .step hquiet (congrArg Host.Outcome.next (if_neg hactive)) <|
    .step hquiet (congrArg Host.Outcome.next (if_neg hcross)) <|
    hloop.trans <|
    .step (inv.quiet hPt) hend (.refl _), hPt⟩

/-- The bytes of a range, as the contents of a ring. -/
theorem map_some_hostBytes (s : State) (a n : Nat) :
    (hostBytes s a n).map some = (List.range n).map fun j => some (hostByteAt s (a + j)) :=
  List.map_map

/-- Settles O23: the loop queues the bytes as far as they fit. -/
theorem putbufferQueuesTheBytes : Obligations.PutbufferQueuesTheBytes := by
  unfold Obligations.PutbufferQueuesTheBytes
  intro s len hquiet hidle hactive hwf hspace hundue
  let bs := hostBytes s s.addr.toNat len.toNat
  have hundue' : min (s.tx.length.toNat + bs.length) s.tx.size.toNat < s.autoflush := by
    rwa [length_hostBytes]
  have hstart : Queueing s.accepted (s.tx.contents ++ bs.map some) bs s.accepted :=
    .start hquiet hwf hundue'
  obtain ⟨t, hrun, hend⟩ :=
    putBuffer_runs (s := s.accepted) (putInvariant_queueing s.accepted _) hactive hspace hstart
  obtain ⟨r, rfl⟩ := hend.eq
  obtain ⟨k, hk⟩ := command_finishes (l := .putBuffer .S1) (x := { a16 := len }) hidle hrun rfl
  rw [encodeResult_toNat] at hk
  rw [← map_some_hostBytes]
  exact ⟨k, _, hk, rfl, hend.contents_eq, hend.size, hend.wf⟩

/-- Before the first byte of a run with auto-flush. -/
theorem Sending.start (hs : s.CanSend) (hheld : s.tx.contents = held.map some)
    (hbelow : s.tx.length.toNat < s.autoflush) (bs : List Byte) : Sending s (held ++ bs) bs s :=
  ⟨[], held, .refl hs hheld hbelow, rfl⟩

/-- Settles O24: the loop sends or keeps every byte, in order. -/
theorem putbufferLosesNoByte : Obligations.PutbufferLosesNoByte := by
  unfold Obligations.PutbufferLosesNoByte
  intro s len hquiet hidle hactive href hlistening hwf hwritten hspace hcap hbelow
  obtain ⟨held, hheld⟩ := contents_of_written hwritten
  let bs := hostBytes s s.addr.toNat len.toNat
  have hstart : Sending s.accepted (held ++ bs) bs s.accepted :=
    .start (s := s.accepted) ⟨hquiet, href, hlistening, hwf⟩ hheld hbelow bs
  obtain ⟨t, hrun, frames, kept, hsent, hall⟩ :=
    putBuffer_runs (s := s.accepted) (putInvariant_sending (s := s.accepted) hcap _) hactive hspace hstart
  obtain ⟨r, c, rfl⟩ := hsent.eq
  obtain ⟨k, hk⟩ := command_finishes (l := .putBuffer .S1) (x := { a16 := len }) hidle hrun rfl
  rw [encodeResult_toNat] at hk
  refine ⟨k, _, frames, hk, rfl, ?order, hsent.frames, hsent.below, hsent.canSend.listening⟩
  have hkept : r.contents = kept.map some := hsent.contents
  rw [List.append_nil] at hall
  calc frames.flatten.map some ++ r.contents
      = (held ++ bs).map some := by rw [hkept, ← List.map_append, hall]
    _ = _ := by rw [List.map_append, ← hheld, map_some_hostBytes]

/-! ## The scan of PUTSTRING (R229) -/

/-- A byte that is not the zero, before the longest string: the scan goes on. -/
theorem stepPutString_scans (hspace : x.a32.toNat + x.n < 4294967296)
    (hbyte : hostByteAt s (x.a32.toNat + x.n) ≠ 0) (hmore : x.n ≠ 65535) (rest : List Frame) :
    stepPutString .S2 x rest s =
      .next (moveTo (.putString .S2) { x with c := hostByteAt s (x.a32.toNat + x.n), n := x.n + 1 } rest s) := by
  have hbelow : ¬ 4294967295 < x.a32.toNat + x.n := by omega
  refine (if_neg hbelow).trans (memRead_eq_next.2 ⟨hspace, ?_⟩)
  exact congrArg Host.Outcome.next ((if_neg hbyte).trans (if_neg hmore))

/-- The zero ends the scan. -/
theorem stepPutString_finds_zero (hspace : x.a32.toNat + x.n < 4294967296)
    (hbyte : hostByteAt s (x.a32.toNat + x.n) = 0) (rest : List Frame) :
    stepPutString .S2 x rest s =
      .next (moveTo (.putString .S3) { x with c := hostByteAt s (x.a32.toNat + x.n) } rest s) := by
  have hbelow : ¬ 4294967295 < x.a32.toNat + x.n := by omega
  refine (if_neg hbelow).trans (memRead_eq_next.2 ⟨hspace, ?_⟩)
  exact congrArg Host.Outcome.next (if_pos hbyte)

/-- The byte after the longest string is not the zero: `STRLEN`. -/
theorem stepPutString_too_long (hspace : x.a32.toNat + x.n < 4294967296)
    (hbyte : hostByteAt s (x.a32.toNat + x.n) ≠ 0) (hlast : x.n = 65535) (rest : List Frame) :
    stepPutString .S2 x rest s = .next (raiseFault .strlen s) := by
  have hbelow : ¬ 4294967295 < x.a32.toNat + x.n := by omega
  refine (if_neg hbelow).trans (memRead_eq_next.2 ⟨hspace, ?_⟩)
  exact congrArg Host.Outcome.next ((if_neg hbyte).trans (if_pos hlast))

/-- The scan has passed the last address: `HADDR`. -/
theorem stepPutString_leaves_memory (hspace : 4294967296 ≤ x.a32.toNat + x.n) (rest : List Frame) (s : State) :
    stepPutString .S2 x rest s = .next (raiseFault .haddr s) := by
  have hcross : 4294967295 < x.a32.toNat + x.n := by omega
  exact if_pos hcross

/-- The scan passes `n` bytes none of which is the zero. -/
theorem putString_scans (hquiet : s.undisturbed = true) (n : Nat) (hn : x.n + n ≤ 65535)
    (hspace : x.a32.toNat + (x.n + n) ≤ 4294967296)
    (hbytes : ∀ j, j < n → hostByteAt s (x.a32.toNat + (x.n + j)) ≠ 0) (rest : List Frame) :
    ∃ y, Reaches (moveTo (.putString .S2) x rest s) (moveTo (.putString .S2) y rest s) ∧ y.n = x.n + n ∧
      y.a32 = x.a32 := by
  induction n generalizing x with
  | zero => exact ⟨x, .refl _, rfl, rfl⟩
  | succ n ih =>
    have hscan := stepPutString_scans (x := x) (s := moveTo (.putString .S2) x rest s) (by omega)
      (hbytes 0 (Nat.succ_pos n)) (by omega) rest
    obtain ⟨y, hrun, hy, haddr⟩ :=
      ih (x := { x with c := hostByteAt s (x.a32.toNat + x.n), n := x.n + 1 })
        (show x.n + 1 + n ≤ _ by omega) (show x.a32.toNat + (x.n + 1 + n) ≤ _ by omega)
        (fun j hj => by
          have hbyte := hbytes (j + 1) (Nat.succ_lt_succ hj)
          rwa [← Nat.add_assoc x.n, Nat.add_right_comm x.n] at hbyte)
    exact ⟨y, .step hquiet hscan hrun, hy.trans (Nat.add_right_comm x.n 1 n), haddr⟩

/-- An active PUTSTRING scans the bytes from `ADDR` up. -/
theorem putString_scans_from_start (hquiet : s.undisturbed = true) (hactive : s.initialized ≠ 0) {n : Nat}
    (hn : n ≤ 65535) (hspace : s.addr.toNat + n ≤ 4294967296)
    (hbytes : ∀ j, j < n → hostByteAt s (s.addr.toNat + j) ≠ 0) :
    ∃ y, Reaches (moveTo (.putString .S1) { a32 := s.addr } [] s) (moveTo (.putString .S2) y [] s) ∧ y.n = n ∧
      y.a32 = s.addr := by
  obtain ⟨y, hrun, hy, haddr⟩ := putString_scans (x := { a32 := s.addr }) hquiet n
    ((Nat.zero_add n).trans_le hn) (by rwa [Nat.zero_add]) (fun j hj => by rw [Nat.zero_add]; exact hbytes j hj) []
  exact ⟨y, .step hquiet (congrArg Host.Outcome.next (if_neg hactive)) hrun, hy.trans (Nat.zero_add n), haddr⟩

/-- A command that runs to a fault, having changed nothing: its bit alone is set. -/
theorem command_faults (hidle : s.status.busy = false) {l : Label} {c : FaultCode}
    (hrun : Reaches (moveTo l { x with a32 := s.addr } [] s.accepted) (raiseFault c s.accepted)) :
    ∃ k, andThen (.next (acceptCommand l x s)) (steps k) =
      .next { s with status := s.status.raise c, seq := .idle } := by
  obtain ⟨k, hk⟩ := hrun
  rw [raiseFault_accepted hidle c rfl] at hk
  exact ⟨k, (steps_of_accepted hidle l x k).trans hk⟩

/-- Settles O26: the scan passes the bytes before the one, or before the address, at which it fails. -/
theorem putstringScanFaults : Obligations.PutstringScanFaults := by
  unfold Obligations.PutstringScanFaults
  intro s hquiet hidle hactive
  constructor
  · intro hbytes hspace
    obtain ⟨y, hscan, hn, haddr⟩ := putString_scans_from_start (s := s.accepted) (n := 65535) hquiet hactive
      le_rfl (show s.addr.toNat + 65535 ≤ 4294967296 by omega) (fun j hj => hbytes j hj.le)
    have hfault := stepPutString_too_long (x := y) (s := moveTo (.putString .S2) y [] s.accepted)
      (by rw [haddr, hn]; exact Nat.lt_succ_of_le hspace)
      (by rw [haddr, hn]; exact hbytes 65535 le_rfl) hn []
    exact command_faults (l := .putString .S1) (x := {}) hidle (hscan.trans (.step hquiet hfault (.refl _)))
  · intro hbytes hspace
    have htop : s.addr.toNat + (4294967296 - s.addr.toNat) = 4294967296 := by omega
    obtain ⟨y, hscan, hn, haddr⟩ := putString_scans_from_start (s := s.accepted)
      (n := 4294967296 - s.addr.toNat) hquiet hactive (by omega) htop.le
      (fun j hj => hbytes _ (Nat.le_add_right _ _) (show s.addr.toNat + j ≤ 4294967295 by omega))
    have hfault := stepPutString_leaves_memory (x := y) (by rw [haddr, hn]; exact htop.ge) []
      (moveTo (.putString .S2) y [] s.accepted)
    exact command_faults (l := .putString .S1) (x := {}) hidle (hscan.trans (.step hquiet hfault (.refl _)))

/-! ## PUTSTRING (R229) -/

/-- An active PUTSTRING queues the `n` bytes before the first zero as PUT_ONE does, sends one frame of what
`TX` then holds, and returns `n`. -/
theorem putString_runs {P : List Byte → State → Prop} (inv : PutInvariant s.hostMem P)
    (hsends : ∀ t, P [] t → t.CanSend) (hactive : s.initialized ≠ 0) {n : Nat} (hn : n ≤ 65535)
    (hspace : s.addr.toNat + n ≤ 4294967295) (hzero : hostByteAt s (s.addr.toNat + n) = 0)
    (hbytes : ∀ j, j < n → hostByteAt s (s.addr.toNat + j) ≠ 0) (hP : P (hostBytes s s.addr.toNat n) s) :
    ∃ t, P [] t ∧ ∀ last : List Byte, t.tx.contents.take (t.maxPayload - 1) = last.map some →
      ∃ r c, Reaches (moveTo (.putString .S1) { a32 := s.addr } [] s)
          (finish n (t.sent r c (t.txLog ++ [stagedRecord last]))) ∧
        r.contents = t.tx.contents.drop last.length ∧
        (t.sent r c (t.txLog ++ [stagedRecord last])).CanSend := by
  have hquiet := inv.quiet hP
  obtain ⟨y, hscan, hyn, haddr⟩ := putString_scans_from_start hquiet hactive hn (by omega) hbytes
  have hend := stepPutString_finds_zero (x := y) (s := moveTo (.putString .S2) y [] s)
    (by rw [hyn, haddr]; omega) (by rw [hyn, haddr]; exact hzero) []
  let z : Locals := { y with c := hostByteAt s (y.a32.toNat + y.n), i := 0 }
  obtain ⟨w, t, hloop, hPt, hi, _, hwn⟩ := byteLoop_runs inv .string (x := z) hP
    (by rw [length_hostBytes]; exact (Nat.zero_add n).trans hyn.symm)
    (show y.a32.toNat + y.n ≤ _ by rw [hyn, haddr]; omega)
    (fun j hj => by rw [show z.a32 = s.addr from haddr]; simp [hostBytes, z]) []
  refine ⟨t, hPt, fun last hlast => ?_⟩
  obtain ⟨r, c, hsend, hr, _, hsent⟩ := loadAndSend_sends (hsends t hPt) hlast ⟨.putString .S8, w⟩ []
  have hreturn (v : State) : stepPutString .S8 w [] v = .next (finish n v) := by
    rw [← hyn, ← show w.n = y.n from hwn]
    rfl
  have hexit : stepPutString .S4 w [] (moveTo (.putString .S4) w [] t) = .next (moveTo (.putString .S7) w [] t) :=
    if_pos hi
  have hquiet' := inv.quiet hPt
  exact ⟨r, c, hscan.trans <| .step hquiet hend <| .step hquiet rfl <| hloop.trans <| .step hquiet' hexit <|
    .step hquiet' rfl <| hsend.trans <| .step hsent.quiet (hreturn _) (.refl _), hr, hsent⟩

/-- What is left behind a frame was left because the frame is as long as it can be. -/
theorem length_take_of_left {n : Nat} (h : bs.drop (bs.take n).length ≠ []) : (bs.take n).length = n := by
  by_contra hne
  rw [List.length_take] at h hne
  exact h (List.drop_of_length_le (by omega))

/-- Settles O25: the loop queues the string as PUTBUFFER does, and one frame follows. -/
theorem putstringQueuesAndSends : Obligations.PutstringQueuesAndSends := by
  unfold Obligations.PutstringQueuesAndSends
  intro s n hquiet hidle hactive href hlistening hwf hn hspace hzero hbytes queued
  let bs := hostBytes s s.addr.toNat n
  have hcan : s.accepted.CanSend := ⟨hquiet, href, hlistening, hwf⟩
  have hqueued : queued = s.tx.contents ++ bs.map some := by rw [map_some_hostBytes]
  constructor
  · intro last hundue hlast
    have hundue' : min (s.tx.length.toNat + bs.length) s.tx.size.toNat < s.autoflush := by
      rwa [length_hostBytes]
    obtain ⟨t, hend, hruns⟩ := putString_runs (putInvariant_queueing s.accepted (s.tx.contents ++ bs.map some))
      (fun t h => h.canSend hcan) hactive hn hspace hzero hbytes (.start hquiet hwf hundue')
    have hcontents : t.tx.contents = queued.take s.tx.size.toNat := hend.contents_eq.trans (by rw [hqueued]; rfl)
    obtain ⟨r, rfl⟩ := hend.eq
    obtain ⟨r', c, hrun, hr, hsent⟩ := hruns last (by rw [hcontents]; exact hlast)
    obtain ⟨k, hk⟩ := command_finishes (l := .putString .S1) (x := {}) hidle hrun rfl
    rw [encodeResult_natCast] at hk
    rw [hcontents] at hr
    exact ⟨k, _, hk, rfl, hr, hsent.listening⟩
  · intro hwritten hcap hbelow
    obtain ⟨held, hheld⟩ := contents_of_written hwritten
    obtain ⟨t, ⟨flushed, kept, hflushed, hall⟩, hruns⟩ :=
      putString_runs (putInvariant_sending (s := s.accepted) hcap (held ++ bs))
        (fun t ⟨_, _, h, _⟩ => h.canSend) hactive hn hspace hzero hbytes (.start hcan hheld hbelow bs)
    have hkept := hflushed.contents
    have hframes := hflushed.frames
    obtain ⟨r, c, rfl⟩ := hflushed.eq
    let last := kept.take (s.maxPayload - 1)
    obtain ⟨r', c', hrun, hr, hsent⟩ := hruns last (by rw [hkept, ← List.map_take]; rfl)
    obtain ⟨k, hk⟩ := command_finishes (l := .putString .S1) (x := {}) hidle hrun rfl
    rw [encodeResult_natCast] at hk
    rw [hkept, ← List.map_drop] at hr
    have hlast : last ++ kept.drop last.length = kept := take_append_drop_length _ _
    refine ⟨k, _, flushed, last, hk, ?frame, ?order, hframes, ?short, ?full, hsent.listening⟩
    case frame =>
      rw [List.map_append, ← List.append_assoc]
      rfl
    case order =>
      have hsplit : flushed.flatten ++ last ++ kept.drop last.length = held ++ bs := by
        rw [List.append_assoc, hlast, ← hall, List.append_nil]
      calc (flushed.flatten ++ last).map some ++ r'.contents
          = (held ++ bs).map some := by rw [hr, ← List.map_append, hsplit]
        _ = queued := by rw [hqueued, hheld, List.map_append]
    case short => exact List.length_take_le _ _
    case full =>
      refine fun hleft => length_take_of_left fun hnil => hleft (hr.trans ?_)
      rw [hnil, List.map_nil]

end Sys2Proof.Machine

/-! Events and their handlers (60_exceptions.md R264 to R270): where an event latches, which handler a set
latch runs, and what every handler leaves as it was. -/

namespace Sys2Proof.Machine

variable {s t : State}

/-! ## Latches and enables -/

/-- A latch set twice is a latch set once: events of a kind coalesce (R264). -/
theorem set_set (b : EventBits) (e : Event) (v : Bool) : (b.set e v).set e v = b.set e v := by
  cases e <;> rfl

/-- An event whose enable is 1 sets its latch (R264). -/
theorem fireEvent_of_enabled {e : Event} (h : s.en.get e = true) :
    fireEvent e s = { s with pend := s.pend.set e true } := if_pos h

/-- An event whose enable is 0 is lost (R264). -/
theorem fireEvent_of_disabled {e : Event} (h : s.en.get e = false) : fireEvent e s = s :=
  if_neg (by simp [h])

/-- Settles O50: an event by its enable, and `EVT_EN` by `get_mask`, the latches left under the new
enables. -/
theorem eventsLatchWhereEnabled : Obligations.EventsLatchWhereEnabled := by
  unfold Obligations.EventsLatchWhereEnabled
  intro s
  refine ⟨fun e h => fireEvent_of_disabled h, ?enabled, ?write⟩
  case enabled =>
    intro e h
    have hlatched := fireEvent_of_enabled h
    refine ⟨hlatched, ?_⟩
    rw [hlatched, fireEvent_of_enabled (s := { s with pend := s.pend.set e true }) h, set_set]
  case write => exact fun v => ⟨_, rfl, rfl, rfl, rfl, rfl, get_mask s.pend (eventEnables v)⟩

/-! ## Priority (R265, R267) -/

/-- A handler leaves the sequencer, `TX`, the channel, `RESULT`, host memory and the chip (R269). -/
theorem Handled.frame {v : Word} (h : Handled s v t) :
    t.seq = s.seq ∧ t.tx = s.tx ∧ t.initialized = s.initialized ∧ t.result = s.result ∧
      t.hostMem = s.hostMem ∧ t.chip = s.chip := by
  cases h <;> simp [takeEvent, handlerReturn, onTransmitComplete]

/-- Settles O49: the vector of the highest latch decodes to its handler, and a block's step with a latch
set is a handler. -/
theorem handlersRunByPriority : Obligations.HandlersRunByPriority := by
  unfold Obligations.HandlersRunByPriority
  intro s
  refine ⟨?frameStart, ?frameEnd, ?txComplete, ?frame⟩
  case frameStart =>
    intro hstart
    exact blockStep_of_event (v := 0) (by simp [pendingVector, hstart]) rfl
  case frameEnd =>
    intro hstart hend
    exact blockStep_of_event (v := 1) (by simp [pendingVector, hstart, hend]) rfl
  case txComplete =>
    intro hstart hend htxc
    exact blockStep_of_event (v := 2) (by simp [pendingVector, hstart, hend, htxc]) rfl
  case frame =>
    intro t hpend h
    rcases blockStep_cases h with ⟨hnone, _⟩ | ⟨v, _, hv⟩
    · exact absurd hnone hpend
    · exact hv.frame

end Sys2Proof.Machine

/-! What no step changes: the parameters, the capacities of the rings, and `refused` once it is set
(10_state.md R22, R50; 00_scope.md R5). -/

namespace Sys2Proof.Machine

variable {f : Frame} {rest : List Frame} {s t u : State}

/-- The constants of a run are those of `s` in `t`, and `refused` is not cleared. -/
structure State.ConstantsKept (s t : State) : Prop where
  refused : s.refused = true → t.refused = true
  rxSize : t.rx.size = s.rx.size
  txSize : t.tx.size = s.tx.size
  maxPayload : t.maxPayload = s.maxPayload
  autoflush : t.autoflush = s.autoflush
  chipModel : t.chipModel = s.chipModel

/-- An update that writes neither a constant nor `refused`. -/
theorem State.ConstantsKept.of_eq
    (h : t.refused = s.refused ∧ t.rx.size = s.rx.size ∧ t.tx.size = s.tx.size ∧
      t.maxPayload = s.maxPayload ∧ t.autoflush = s.autoflush ∧ t.chipModel = s.chipModel) :
    s.ConstantsKept t := by
  obtain ⟨hrefused, hrx, htx, hpay, hflush, hchip⟩ := h
  exact ⟨fun h => hrefused.trans h, hrx, htx, hpay, hflush, hchip⟩

theorem State.ConstantsKept.trans (h : s.ConstantsKept t) (h' : t.ConstantsKept u) : s.ConstantsKept u where
  refused := h'.refused ∘ h.refused
  rxSize := h'.rxSize.trans h.rxSize
  txSize := h'.txSize.trans h.txSize
  maxPayload := h'.maxPayload.trans h.maxPayload
  autoflush := h'.autoflush.trans h.autoflush
  chipModel := h'.chipModel.trans h.chipModel

/-- A ring replaced by one of its capacity. -/
theorem constantsKept_setRing {sel : RingSel} {r : Ring} (h : r.size = (s.ring sel).size) :
    s.ConstantsKept (s.setRing sel r) := by
  cases sel
  · exact .of_eq ⟨rfl, h, rfl, rfl, rfl, rfl⟩
  · exact .of_eq ⟨rfl, rfl, h, rfl, rfl, rfl⟩

/-- No ring primitive changes a ring's capacity (R22). -/
theorem RingOp.constantsKept (op : RingOp s t) : s.ConstantsKept t := by
  cases op with
  | reset sel => exact constantsKept_setRing rfl
  | flush sel => exact constantsKept_setRing rfl
  | pop sel =>
    rcases ringPop_cases sel s with ⟨_, e⟩ | ⟨_, e⟩ <;> rw [e]
    · exact .of_eq (by simp)
    · exact .trans (.of_eq (by simp)) (constantsKept_setRing (by cases sel <;> simp [Ring.popped]))
  | push sel b =>
    rcases ringPush_cases sel b s with ⟨_, e⟩ | ⟨_, e⟩ <;> rw [e]
    · exact constantsKept_setRing rfl
    · exact .of_eq (by simp)

/-- The effect of a routine's step changes no constant. -/
theorem SeqEffect.constantsKept (e : SeqEffect f s u) : s.ConstantsKept u := by
  cases e with
  | ring _ op => exact op.constantsKept
  | _ => exact .of_eq (by simp)

/-- Passing control changes no constant. -/
theorem Stepped.constantsKept (st : Stepped f rest s t) : s.ConstantsKept t := by
  cases st with
  | goto e _ => exact e.constantsKept.trans (.of_eq (by simp))
  | ret e _ => exact e.constantsKept.trans (.of_eq (by simp))
  | finish _ e => exact e.constantsKept.trans (.of_eq (by simp))
  | _ => exact .of_eq (by simp)

/-- The push loop of onFrameEnd changes no constant: each byte is pushed, or counted where `RX` is full. -/
theorem constantsKept_acceptPayload (bs : List Byte) (s : State) : s.ConstantsKept (acceptPayload bs s) := by
  induction bs generalizing s with
  | nil => exact .of_eq (by simp [acceptPayload])
  | cons b bs ih =>
    have hpush := (RingOp.push (s := s) .rx b).constantsKept
    simp only [acceptPayload]
    split
    · exact (hpush.trans (.of_eq (by simp))).trans (ih _)
    · exact hpush.trans (ih _)

/-- onFrameEnd changes no constant. -/
theorem constantsKept_onFrameEnd (s : State) : s.ConstantsKept (onFrameEnd s) := by
  unfold onFrameEnd
  split
  · dsimp only
    split
    · exact .of_eq (by simp)
    · exact .trans (.of_eq (by simp)) (constantsKept_acceptPayload _ _)
  · exact .of_eq (by simp)

/-- A handler changes no constant. -/
theorem Handled.constantsKept {v : Word} (h : Handled s v t) : s.ConstantsKept t := by
  cases h with
  | frameStart => exact .of_eq (by simp [takeEvent, handlerReturn])
  | frameEnd =>
    have hbody := constantsKept_onFrameEnd { s with pend := s.pend.set .frameEnd false }
    exact .trans (.of_eq (by simp)) hbody
  | txComplete => exact .of_eq (by simp [takeEvent, handlerReturn, onTransmitComplete])

/-- An instruction changes no constant. -/
theorem Executed.constantsKept (h : Executed s t) : s.ConstantsKept t := by
  cases h with
  | ring op => exact op.constantsKept.trans (.of_eq (by simp))
  | event he => exact he.constantsKept
  | _ => exact .of_eq (by simp)

/-- A step of the host changes no constant, and only sets `refused` (60_exceptions.md R263). -/
theorem HostResult.constantsKept {a : HostAccess} (h : HostResult s a t) : s.ConstantsKept t := by
  cases h with
  | misaligned => exact ⟨fun _ => rfl, rfl, rfl, rfl, rfl, rfl⟩
  | _ => exact .of_eq (by simp)

/-- No turn changes a constant. -/
theorem TurnTaken.constantsKept {a : Turn} (h : TurnTaken s a t) : s.ConstantsKept t := by
  cases h with
  | sequencer _ h =>
    rcases seqStep_cases h with ⟨_, rfl⟩ | ⟨f, rest, _, st⟩
    · exact .of_eq (by simp)
    · exact st.constantsKept
  | handler _ h => exact h.constantsKept
  | host h => exact h.constantsKept
  | chip c => exact .of_eq (by simp)
  | air a => exact .of_eq (by simp)
  | issue h => exact h.constantsKept

/-- Settles O56: the fault bits by `step_faultsKept`, the rest by the turn that was taken. -/
theorem faultBitsAreSticky : Obligations.FaultBitsAreSticky := by
  unfold Obligations.FaultBitsAreSticky
  intro s t h
  obtain ⟨ts, turn⟩ := step_cases h
  obtain ⟨hrefused, hrx, htx, hpay, hflush, hchip⟩ := turn.constantsKept
  exact ⟨step_faultsKept h, hrefused, hrx, htx, hpay, hflush, hchip⟩

end Sys2Proof.Machine

/-! The faults a command raises, `HADDR`, `STRLEN` and `INITACT`: no step but the raise that ends the command
sets one (60_exceptions.md R262). -/

namespace Sys2Proof.Machine

variable {f : Frame} {rest : List Frame} {s t u : State}

/-- The bits of the faults a command raises are the same. -/
def Status.SameCommandFaults (st st' : Status) : Prop :=
  st'.haddr = st.haddr ∧ st'.strlen = st.strlen ∧ st'.initact = st.initact

/-- A status left as it was. -/
theorem Status.SameCommandFaults.of_eq {st st' : Status} (h : st' = st) : st.SameCommandFaults st' := by
  rw [h]
  exact ⟨rfl, rfl, rfl⟩

/-- What the two statuses say of a fault a command raises. -/
theorem Status.SameCommandFaults.has_eq {st st' : Status} (h : st.SameCommandFaults st') {c : FaultCode}
    (hc : c = .haddr ∨ c = .strlen ∨ c = .initact) : st'.has c = st.has c := by
  obtain ⟨hhaddr, hstrlen, hinitact⟩ := h
  rcases hc with rfl | rfl | rfl
  · exact hhaddr
  · exact hstrlen
  · exact hinitact

/-- A command that arrives raises `OVR` at most. -/
theorem sameCommandFaults_acceptCommand (l : Label) (x : Locals) (s : State) :
    s.status.SameCommandFaults (acceptCommand l x s).status := by
  rcases acceptCommand_cases l x s with ⟨_, e⟩ | ⟨_, e⟩ <;> rw [e] <;> exact ⟨rfl, rfl, rfl⟩

/-- A call raises no fault. -/
theorem sameCommandFaults_callSub (g : Frame) (s : State) :
    s.status.SameCommandFaults (callSub g s).status := by
  rcases callSub_cases g s with ⟨_, _, _, e⟩ | ⟨_, e⟩ <;> rw [e] <;> exact ⟨rfl, rfl, rfl⟩

/-- A subroutine's return raises no fault. -/
theorem sameCommandFaults_returnSub (v : OpResult) (give : Locals → Locals) (rest : List Frame) (s : State) :
    s.status.SameCommandFaults (returnSub v give rest s).status := by
  rcases returnSub_cases v give rest s with ⟨_, _, _, e⟩ | ⟨_, e⟩ <;> rw [e] <;> exact ⟨rfl, rfl, rfl⟩

/-! ## What each agent can raise -/

/-- A step of a routine raises a fault and does nothing else, or sets none of the commands' fault bits. -/
theorem Stepped.commandFaults (st : Stepped f rest s t) :
    s.status.SameCommandFaults t.status ∨ ∃ c, t = raiseFault c s := by
  cases st with
  | stay => exact .inl (.of_eq rfl)
  | goto e _ =>
    obtain ⟨_, hstatus, _⟩ := e.control
    exact .inl (.of_eq (by simp [hstatus]))
  | call _ _ _ => exact .inl (sameCommandFaults_callSub _ (moveTo _ _ rest s))
  | ret e _ =>
    obtain ⟨_, hstatus, _⟩ := e.control
    rw [← hstatus]
    exact .inl (sameCommandFaults_returnSub _ _ _ _)
  | finish _ e =>
    obtain ⟨_, hstatus, _⟩ := e.control
    rw [← hstatus]
    exact .inl ⟨rfl, rfl, rfl⟩
  | fault c => exact .inr ⟨c, rfl⟩

/-- onFrameEnd raises `RXLEN` at most (42_event_handlers.md R182). -/
theorem sameCommandFaults_onFrameEnd (s : State) : s.status.SameCommandFaults (onFrameEnd s).status := by
  unfold onFrameEnd
  split
  · dsimp only
    split
    · simp [Status.SameCommandFaults, Status.raise]
    · exact .of_eq (by simp)
  · exact .of_eq rfl

/-- A handler sets none of the commands' fault bits. -/
theorem Handled.sameCommandFaults {v : Word} (h : Handled s v t) : s.status.SameCommandFaults t.status := by
  cases h with
  | frameStart => exact .of_eq (by simp [takeEvent, handlerReturn])
  | frameEnd => exact sameCommandFaults_onFrameEnd { s with pend := s.pend.set .frameEnd false }
  | txComplete => exact .of_eq rfl

/-- An instruction sets none of the commands' fault bits: the routine it starts has still to run. -/
theorem Executed.sameCommandFaults (h : Executed s t) : s.status.SameCommandFaults t.status := by
  cases h with
  | command _ => exact sameCommandFaults_acceptCommand _ _ s
  | ring op =>
    obtain ⟨_, _, _, _, _, _, _, _, _, _, _, hstatus, _⟩ := op.fields
    exact .of_eq (by simp [hstatus])
  | call _ => exact sameCommandFaults_callSub _ s
  | event h => exact h.sameCommandFaults
  | _ => exact .of_eq (by simp)

/-- A write of `CMD` is answered, and raises `OVR` or `ILL` at most (30_encoding.md R92, R94, R95). -/
theorem hostWriteCmd_next (w : Word) (s : State) :
    ∃ t, hostWriteCmd w s = .next t ∧ s.status.SameCommandFaults t.status := by
  cases hw : decode .hcmd w with
  | ok i =>
    obtain ⟨t, ht, he⟩ := exec_executed i s
    exact ⟨t, (hostWriteCmd_of_ok hw s).trans ht, he.sameCommandFaults⟩
  | error e =>
    refine ⟨_, hostWriteCmd_of_error hw s, ?_⟩
    cases s.status.busy <;> exact ⟨rfl, rfl, rfl⟩

/-- A register write is answered, and but for `CMD` leaves `STATUS` (10_state.md R39). -/
theorem hostWriteReg_next (offset : Nat) (v : Word) (s : State) :
    ∃ t, hostWriteReg offset v s = .next t ∧ s.status.SameCommandFaults t.status := by
  unfold hostWriteReg
  split
  · exact hostWriteCmd_next v s
  · exact ⟨_, rfl, .of_eq rfl⟩
  · exact ⟨_, rfl, .of_eq rfl⟩

/-- Every step of the host is answered, and sets none of the commands' fault bits. -/
theorem hostStep_next (a : HostAccess) (s : State) :
    ∃ t, hostStep a s = .next t ∧ s.status.SameCommandFaults t.status := by
  cases a with
  | read bytes offset =>
    simp only [hostStep]
    split
    · obtain ⟨n, hn⟩ := hostReadReg_draws offset s
      exact ⟨_, rfl, .of_eq (by rw [hn])⟩
    · exact ⟨_, rfl, .of_eq rfl⟩
  | memWrite addr v => exact ⟨_, rfl, .of_eq rfl⟩
  | write bytes offset v =>
    simp only [hostStep]
    split
    · exact hostWriteReg_next offset v s
    · exact ⟨_, rfl, .of_eq rfl⟩

/-- A turn raises a fault and does nothing else, or sets none of the commands' fault bits. -/
theorem takeTurn_commandFaults {a : Turn} (h : takeTurn a s = .next t) :
    s.status.SameCommandFaults t.status ∨ ∃ c, t = raiseFault c s := by
  cases takeTurn_cases h with
  | sequencer _ hseq =>
    rcases seqStep_cases hseq with ⟨_, rfl⟩ | ⟨f, rest, _, st⟩
    · exact .inl (.of_eq rfl)
    · exact st.commandFaults
  | handler _ hv => exact .inl hv.sameCommandFaults
  | @host a _ _ =>
    obtain ⟨u, hu, hsame⟩ := hostStep_next a s
    obtain rfl := Host.Outcome.next.inj (hu.symm.trans h)
    exact .inl hsame
  | chip c => exact .inl (.of_eq (by simp))
  | air a => exact .inl (.of_eq (by simp))
  | issue he => exact .inl he.sameCommandFaults

/-! ## The turn that is next -/

/-- A step of a legal state is the turn that is next. -/
theorem step_of_legal (h : s.legal = true) : step s = takeTurn (nextTurn s).1 (nextTurn s).2 := if_pos h

/-- A state that has a step is legal (60_exceptions.md R263 (b)). -/
theorem legal_of_step (h : step s = .next t) : s.legal = true := by
  by_contra hlegal
  rw [step_of_not_legal hlegal] at h
  cases h

/-- Taking the turn off the agenda leaves `STATUS`. -/
theorem nextTurn_status (s : State) : (nextTurn s).2.status = s.status := by
  unfold nextTurn
  split <;> rfl

/-! ## The fault that is newly set -/

/-- The fault bits after a raise: the one raised, and those set before. -/
theorem raiseFault_has (c d : FaultCode) (s : State) :
    (raiseFault d s).status.has c = (s.status.raise d).has c := by
  cases c <;> rfl

/-- The fault that a raise has newly set is the one it raised. -/
theorem eq_of_raiseFault_has {c d : FaultCode} (hclear : s.status.has c = false)
    (hset : (raiseFault d s).status.has c = true) : c = d := by
  rw [raiseFault_has, raise_has, hclear, Bool.or_false] at hset
  exact of_decide_eq_true hset

/-- Settles O57: the turn is a raise, and of the fault that is newly set. -/
theorem commandFaultsArePrecise : Obligations.CommandFaultsArePrecise := by
  unfold Obligations.CommandFaultsArePrecise
  intro s t c h hc hclear hset
  rw [step_of_legal (legal_of_step h)] at h
  rw [← nextTurn_status s] at hclear ⊢
  rcases takeTurn_commandFaults h with hsame | ⟨d, rfl⟩
  · rw [hsame.has_eq hc, hclear] at hset
    cases hset
  · rw [eq_of_raiseFault_has hclear hset]
    rfl

end Sys2Proof.Machine

/-! Every step of a sound state is answered with a next state (60_exceptions.md R260): the bounds the
invariant puts on a frame's locals keep each memory access inside its space (log 18), and legal parameters
and an assigned code are never refused (log 19). -/

namespace Sys2Proof.Machine

variable {x : Locals} {rest : List Frame} {s : State}

/-- An answer that is neither a fault nor a refusal. -/
def Proceeds (a : Answer) : Prop := ∃ t, a = .next t

theorem proceeds_next (t : State) : Proceeds (.next t) := ⟨t, rfl⟩

/-! ## Accesses inside their spaces (20_memory.md R60) -/

/-- A write of a frame-buffer byte, and then the rest of the step. -/
theorem proceeds_writeFb {i : Nat} (hi : i < 128) (v : Byte) (s : State) (k : State → State) :
    Proceeds (andThen (writeFb i v s) fun u => .next (k u)) := by
  rw [writeFb_of_lt hi]
  exact proceeds_next _

/-- A write of a byte of host memory, and then the rest of the step. -/
theorem proceeds_memWrite {a : Nat} (ha : a < 4294967296) (v : Byte) (s : State) (k : State → State) :
    Proceeds (andThen (memWrite a v s) fun u => .next (k u)) := by
  rw [memWrite_of_lt ha]
  exact proceeds_next _

/-- A read of a byte of host memory, and then the rest of the step. -/
theorem proceeds_memRead {a : Nat} (ha : a < 4294967296) (s : State) (k : Byte → State) :
    Proceeds (memRead a s fun c => .next (k c)) :=
  ⟨_, memRead_eq_next.2 ⟨ha, rfl⟩⟩

/-- Host memory has 2^32 bytes (R60 (b)). -/
theorem hostSpace_eq : Config.hostSpace = 4294967296 := rfl

/-- The addresses of a range that does not cross the end of host memory (20_memory.md R74). -/
theorem address_lt_of_not_rangeCrosses {a : Word} {n i : Nat} (h : rangeCrosses a n = false) (hi : i < n) :
    a.toNat + i < 4294967296 := by
  simp only [rangeCrosses, Bool.and_eq_false_iff, decide_eq_false_iff_not] at h
  rw [hostSpace_eq] at h
  omega

/-! ## The steps that access memory -/

/-- LOAD_AND_SEND writes `FB[0]` to `FB[MAX_PAYLOAD]` (43_frame_assembler.md R200). -/
theorem stepLoadAndSend_proceeds {l : LoadAndSendStep} (hpay : s.maxPayload ≤ 127)
    (hf : Frame.wf s.maxPayload ⟨.loadAndSend l, x⟩ = true) :
    Proceeds (stepLoadAndSend l x rest s) := by
  cases l
  case S5 =>
    have hn : x.n < s.maxPayload - 1 := of_decide_eq_true hf
    exact proceeds_writeFb (by omega) _ _ _
  case S6 =>
    have hn : x.n ≤ s.maxPayload - 1 := of_decide_eq_true hf
    exact proceeds_writeFb (by omega) _ _ _
  case S7 => exact proceeds_writeFb (i := 0) (by omega) _ _ _
  all_goals exact proceeds_next _

/-- GETBUFFER writes the range it tested at S2 (44_transport_api.md R222). -/
theorem stepGetBuffer_proceeds {l : GetBufferStep} (hf : Frame.wf s.maxPayload ⟨.getBuffer l, x⟩ = true) :
    Proceeds (stepGetBuffer l x rest s) := by
  cases l
  case S3 =>
    simp only [Frame.wf, Bool.and_eq_true, decide_eq_true_eq, Bool.not_eq_true'] at hf
    obtain ⟨hcount, hrange⟩ := hf
    simp only [stepGetBuffer]
    split
    · exact proceeds_next _
    · exact proceeds_memWrite (address_lt_of_not_rangeCrosses hrange (by omega)) _ _ _
  case S6 =>
    simp only [Frame.wf, Bool.and_eq_true, decide_eq_true_eq, Bool.not_eq_true'] at hf
    obtain ⟨⟨hcount, hmax⟩, hrange⟩ := hf
    exact proceeds_memWrite (address_lt_of_not_rangeCrosses hrange (by omega)) _ _ _
  all_goals exact proceeds_next _

/-- PUTBUFFER reads the range it tested at S2 (44_transport_api.md R228). -/
theorem stepPutBuffer_proceeds {l : PutBufferStep} (hf : Frame.wf s.maxPayload ⟨.putBuffer l, x⟩ = true) :
    Proceeds (stepPutBuffer l x rest s) := by
  cases l
  case S3 =>
    simp only [Frame.wf, Bool.and_eq_true, decide_eq_true_eq, Bool.not_eq_true'] at hf
    obtain ⟨hcount, hrange⟩ := hf
    simp only [stepPutBuffer]
    split
    · exact proceeds_next _
    · exact proceeds_memRead (address_lt_of_not_rangeCrosses hrange (by omega)) _ _
  all_goals exact proceeds_next _

/-- PUTSTRING's scan tests each address before it reads it, and its copy stays in what the scan passed
(44_transport_api.md R229). -/
theorem stepPutString_proceeds {l : PutStringStep} (hf : Frame.wf s.maxPayload ⟨.putString l, x⟩ = true) :
    Proceeds (stepPutString l x rest s) := by
  cases l
  case S2 =>
    simp only [stepPutString]
    split
    · exact proceeds_next _
    · rename_i hspace
      rw [hostSpace_eq] at hspace
      exact proceeds_memRead (by omega) _ _
  case S4 =>
    simp only [Frame.wf, Bool.and_eq_true, decide_eq_true_eq] at hf
    obtain ⟨⟨hcount, _⟩, hspace⟩ := hf
    rw [hostSpace_eq] at hspace
    simp only [stepPutString]
    split
    · exact proceeds_next _
    · exact proceeds_memRead (by omega) _ _
  all_goals exact proceeds_next _

/-! ## Every step -/

/-- A frame whose locals are in bounds has a step. -/
theorem stepFrame_proceeds {f : Frame} (hlegal : s.legal = true) (hf : f.wf s.maxPayload = true) :
    Proceeds (stepFrame f rest s) := by
  obtain ⟨_, _, _, hpay, _⟩ := (state_legal_iff s).1 hlegal
  obtain ⟨l, x⟩ := f
  cases l with
  | loadAndSend l => exact stepLoadAndSend_proceeds hpay hf
  | getBuffer l => exact stepGetBuffer_proceeds hf
  | putBuffer l => exact stepPutBuffer_proceeds hf
  | putString l => exact stepPutString_proceeds hf
  | _ l => cases l <;> exact proceeds_next _

/-- The sequencer of a sound state has a step. -/
theorem seqStep_proceeds (h : s.Inv) : Proceeds (seqStep s) := by
  unfold seqStep
  split
  · exact proceeds_next s
  · rename_i f rest hrun
    exact stepFrame_proceeds h.legal (h.frames f (by simp [hrun]))

/-- Every instruction has a next state. -/
theorem exec_proceeds (i : Instr) (s : State) : Proceeds (exec i s) := by
  obtain ⟨t, ht, _⟩ := exec_executed i s
  exact ⟨t, ht⟩

/-- An issued code that is assigned has a next state (30_encoding.md R104). -/
theorem issueCode_proceeds {f : Format} {w : Word} (h : (decode f w).toOption.isSome = true) (s : State) :
    Proceeds (issueCode f w s) := by
  cases hw : decode f w with
  | ok i =>
    rw [issueCode_of_ok hw]
    exact exec_proceeds i s
  | error e => simp [hw, Except.toOption] at h

/-- The vector of a set latch is assigned (30_encoding.md R101). -/
theorem decode_pendingVector {p : EventBits} {v : Word} (h : pendingVector p = some v) :
    (decode .evt v).toOption.isSome = true := by
  unfold pendingVector at h
  split at h
  · obtain rfl := Option.some.inj h
    rfl
  · split at h
    · obtain rfl := Option.some.inj h
      rfl
    · split at h
      · obtain rfl := Option.some.inj h
        rfl
      · cases h

/-- The block of a sound state has a step: a handler, or the sequencer's. -/
theorem blockStep_proceeds (h : s.Inv) : Proceeds (blockStep s) := by
  unfold blockStep
  split
  · rename_i v hv
    exact issueCode_proceeds (decode_pendingVector hv) s
  · exact seqStep_proceeds h

/-- Taking the turn off the agenda keeps the invariant, which does not read it. -/
theorem nextTurn_inv (h : s.Inv) : (nextTurn s).2.Inv := by
  unfold nextTurn
  split
  · exact h
  · exact ⟨h.legal, h.rxWf, h.txWf, h.rxWritten, h.txWritten, h.fbWf, h.hostWf, h.channel, h.latches, h.busy,
      h.frames⟩

/-- Settles O54: the turn that is next has a next state, agent by agent. -/
theorem soundStatesNeverStop : Obligations.SoundStatesNeverStop := by
  unfold Obligations.SoundStatesNeverStop
  intro s hs hdecodes
  rw [step_of_legal hs.legal]
  have hs' := nextTurn_inv hs
  unfold State.nextTurnDecodes at hdecodes
  cases hturn : (nextTurn s).1 with
  | block => exact blockStep_proceeds hs'
  | host a =>
    obtain ⟨t, ht, _⟩ := hostStep_next a (nextTurn s).2
    exact ⟨t, ht⟩
  | chip c => exact proceeds_next _
  | air a => exact proceeds_next _
  | issue f w =>
    rw [hturn] at hdecodes
    exact issueCode_proceeds hdecodes _

end Sys2Proof.Machine
